-- ==== Sys2Proof/Word.lean ====
section
/-! DEFINITION. The plainest words of the model: bytes, the numbers that name an outlet, a cue line or a frame, and instants. -/

namespace Sys2Proof

/-- One byte on a port, on a link or in record memory (R183). -/
abbrev Byte := BitVec 8

/-- A run of bytes, the first at the lowest offset. -/
abbrev Bytes := List Byte

/-- An outlet, 0 to 7 (00_scope.md, Key numbers). -/
abbrev OutletId := Fin 8

/-- A cue line, 0 to 15 (R27). -/
abbrev CueLine := Fin 16

/-- A return frame number: a 48-bit count (R10). -/
abbrev Rfn := BitVec 48

/-- The tag of a request, 0 to 255 (R161). -/
abbrev Tag := Byte

/-- An instant of the Time Base's own clock, in nanoseconds (R18, R27); DESIGN CHOICE, log entry 2. -/
abbrev Instant := Nat

end Sys2Proof
end

