-- ==== Sys2Proof/Syntax.lean ====
section
/-! DEFINITION. The commands of the block: one constructor per row of spec/opcode_table.json. -/

namespace Sys2Proof

/-- The two message links (R161). -/
inductive Link where
  | automation
  | compliance
  deriving DecidableEq, Repr, Inhabited

/-- Air time `seconds:frame` (R16); a stamp has the same form (R9). -/
structure AirTime where
  seconds : BitVec 32
  frame : Fin 25
  deriving DecidableEq, Repr, Inhabited

/-- The commands. An air frame, a link message and a run of undelimited bytes carry their bytes; a pulse or an edge carries the
instant it falls at; a request's row names the link whose request queue it is taken from, where the request's body lies (R163).
A row about one outlet names the outlet; a row about the record-memory port names nothing, since the port carries one burst. -/
inductive Instr where
  | airFrameArrival (o : OutletId) (bytes : Bytes)
  | airBytesUndelimited (o : OutletId) (bytes : Bytes)
  | gapOpen (o : OutletId)
  | excursion (o : OutletId) (l : Int) (stamp : AirTime)
  | recordTake (o : OutletId)
  | framePulse (t : Instant)
  | secondPulse (t : Instant)
  | missingPulse
  | localOscillatorExpiry
  | returnLost (o : OutletId)
  | cueEdge (k : CueLine) (t : Instant)
  | messageReceived (l : Link) (bytes : Bytes)
  | linkBytesUndelimited (l : Link) (bytes : Bytes)
  | responseSent (l : Link)
  | segDeclare (l : Link)
  | segWithdraw (l : Link)
  | segTake (l : Link)
  | segEnd (l : Link)
  | segList (l : Link)
  | timeSet (l : Link)
  | cueRead (l : Link)
  | profileStage (l : Link)
  | profileRead (l : Link)
  | pageList (l : Link)
  | pageRead (l : Link)
  | pageRelease (l : Link)
  | holdPlace (l : Link)
  | holdRelease (l : Link)
  | holdList (l : Link)
  | evidRead (l : Link)
  | evidAck (l : Link)
  | settingsSave (l : Link)
  | restart (l : Link)
  | status (l : Link)
  | meterRead (l : Link)
  | flagsRead (l : Link)
  | flagsClear (l : Link)
  | maskSet (l : Link)
  | linkReset (l : Link)
  | linkResetLineRise (l : Link)
  | linkResetLineFall (l : Link)
  | arbiterGrant
  | recordWriteComplete
  | deferredReadTimeout (l : Link)
  | evidenceBurstComplete
  | pageReadFetchComplete
  | evidReadFetchComplete
  | powerOn (t : Instant)
  | settingsLoadComplete
  | settingsSaveComplete
  | powerLoss
  | unknownRequestCode (l : Link)
  | recordBurstComplete
  deriving DecidableEq, Repr

end Sys2Proof
end

