-- ==== Sys2Proof/Machine/Types.lean ====
section
/-! DEFINITION. The data types of the block's state: what each chapter of the manual says is held, under the manual's names. -/

namespace Sys2Proof.Machine

/-- One value per link. -/
structure PerLink (α : Type) where
  automation : α
  compliance : α
  deriving DecidableEq, Repr

/-! ### Profile (chapter 6) -/

/-- The subtitle obligation of a segment (R31). -/
inductive Obligation where
  | required
  | liveRelaxed
  | exempt
  deriving DecidableEq, Repr

/-- The fields of one class (R92). Loudness and peak fields are in hundredths of LU and of dB; `none` is NONE. -/
structure ClassLimits where
  target : Int
  toleranceBelow : Int
  toleranceAbove : Int
  peakMax : Int
  shortTermMax : Option Int
  excursionThreshold : Int
  excursionInterval : Nat
  holdOnFail : Bool
  deriving DecidableEq, Repr

/-- A profile without its version: eight classes and the device-wide fields (R92, R93). -/
structure Profile where
  classes : Vector ClassLimits 8
  defaultClass : Fin 8
  defaultObligation : Obligation
  breakClass : Fin 8
  gapRequired : Nat
  gapRelaxed : Nat
  overrunGrace : Nat
  deriving DecidableEq, Repr

/-- A profile version held in a slot of the profile store (R94). -/
structure ProfileVersion where
  version : Nat
  profile : Profile
  deriving DecidableEq, Repr

/-- The profile store: two slots, and whether slot 1 is the one marked latest (R94). -/
structure ProfileStore where
  slot0 : Option ProfileVersion
  slot1 : Option ProfileVersion
  latestIsOne : Bool
  deriving DecidableEq, Repr

/-! ### Flags and masks (chapter 10) -/

/-- The eight flags of a link (R169), in the order of R188. -/
inductive Flag where
  | verdict
  | breach
  | record
  | time
  | queueEmpty
  | cue
  | linkError
  | settings
  deriving DecidableEq, Repr

/-- A set of the eight flags. -/
structure FlagSet where
  verdict : Bool
  breach : Bool
  record : Bool
  time : Bool
  queueEmpty : Bool
  cue : Bool
  linkError : Bool
  settings : Bool
  deriving DecidableEq, Repr

/-- A mask: a set drawn from the eight flags and the EVIDENCE condition (R171). -/
structure Mask where
  flags : FlagSet
  evidence : Bool
  deriving DecidableEq, Repr

/-- Why a message was discarded (R161, R162, R169). -/
inductive LinkErrorReason where
  | check
  | malformed
  | unexpectedResponse
  | duplicateTag
  | tooMany
  deriving DecidableEq, Repr

/-- The cause of the SETTINGS flag's latest raising (R169). -/
inductive SettingsCause where
  | defaults
  | saved
  deriving DecidableEq, Repr

/-! ### Settings image (chapter 11) -/

/-- What a writer does when no free page remains (R113). -/
inductive Policy where
  | overwrite
  | stop
  deriving DecidableEq, Repr

/-- The per-outlet fields of a settings image (R175). -/
structure OutletSettings where
  enabled : Bool
  ringFirst : Nat
  ringCount : Nat
  policy : Policy
  returnDelay : Nat
  subtitleService : Nat
  deriving DecidableEq, Repr

/-- A settings image (R175). `high` says which of W0 to W7, EV, RC and RA, in that order, are in the HIGH group. -/
structure Image where
  memoryGiB : Nat
  outlets : Vector OutletSettings 8
  regionFirst : Nat
  regionCount : Nat
  timeAuthority : Link
  high : Vector Bool 11
  masks : PerLink Mask
  profile : Profile
  deriving DecidableEq, Repr

/-- What serial flash holds: an image that a write left incomplete, or the bytes of an image with the CRC stored behind them
(R175, R179). -/
inductive Flash where
  | incomplete
  | stored (bytes : Bytes) (crc : BitVec 32)
  deriving DecidableEq, Repr

/-- A save in flight: the image offered, its bytes, and the tag to answer, absent once its link was reset (R179). -/
structure Save where
  image : Image
  bytes : Bytes
  tag : Option Tag
  deriving DecidableEq, Repr

/-! ### Time Base and cue lines (chapter 2) -/

/-- The reference state (R17). -/
inductive RefState where
  | unset
  | locked
  | holdover
  deriving DecidableEq, Repr

/-- The latest frame pulse of the station reference: when it came, whether it was accepted, whether a second pulse has marked
it, and whether it was taken as a tick (R18). -/
structure PulseRecord where
  time : Instant
  accepted : Bool
  marked : Bool
  ticked : Bool
  deriving DecidableEq, Repr

/-- A pending time set: the value in seconds, the requesting link and the request's tag (R23). -/
structure PendingSet where
  seconds : BitVec 32
  link : Link
  tag : Tag
  deriving DecidableEq, Repr

/-- The Time Base (R16 to R26). `previous` is the previous accepted frame pulse while there is one: the missing-pulse watchdog
runs out 60 ms after it. `oscillator` is the instant of the local oscillator's next expiry while it runs. -/
structure TimeBase where
  air : AirTime
  ref : RefState
  previous : Option Instant
  qualification : Nat
  holdoverTicks : Nat
  oscillator : Option Instant
  lastPulse : Option PulseRecord
  lastSecond : Option Instant
  pulseTick : Option AirTime
  pendingSet : Option PendingSet
  deriving DecidableEq, Repr

/-- The capture record of a cue line, and the instant of its last accepted edge (R27, R28). -/
structure CueRecord where
  count : Nat
  first : Option AirTime
  last : Option AirTime
  acceptedAt : Option Instant
  deriving DecidableEq, Repr

/-! ### Return Intake (chapter 1) -/

/-- The state of an outlet as seen from its return (R11). -/
inductive OutletState where
  | off
  | waiting
  | active
  | lost
  deriving DecidableEq, Repr

/-- The per-port state of Return Intake. -/
structure Intake where
  state : OutletState
  rfn : Rfn
  expected : Option (BitVec 16)
  lossTimer : Nat
  lostTicks : Nat
  lastArrival : Option (AirTime × Rfn)
  deriving DecidableEq, Repr

/-- The audio layout of a frame (R2). -/
inductive Layout where
  | none
  | mono
  | stereo
  | surround
  deriving DecidableEq, Repr

/-- Three language bytes, compared byte by byte (R78, R184). -/
structure Language where
  a : Byte
  b : Byte
  c : Byte
  deriving DecidableEq, Repr

/-- A subtitle unit: service, kind code, language and text (R2). -/
structure SubUnit where
  service : Byte
  kind : Byte
  language : Language
  text : Bytes
  deriving DecidableEq, Repr

/-! ### Segment Scheduler (chapter 3) -/

/-- Segment kinds (R31, R48). -/
inductive SegKind where
  | undeclared
  | programme
  | live
  | commercial
  | promo
  | junction
  deriving DecidableEq, Repr

/-- Start modes (R31). -/
inductive StartMode where
  | timed (start : AirTime)
  | cued (line : CueLine)
  | manual
  | follow
  deriving DecidableEq, Repr

/-- A declaration (R31). A language of `none` is ANY; a start mode of `none` is the UNDECLARED segment's (R48). -/
structure Declaration where
  id : BitVec 32
  kind : SegKind
  cls : Fin 8
  obligation : Obligation
  language : Option Language
  start : Option StartMode
  duration : Nat
  deriving DecidableEq, Repr

/-- The boundary stamp of an armed segment: T, or NEXT_FRAME (R42). -/
inductive BoundaryStamp where
  | stamp (t : AirTime)
  | nextFrame
  deriving DecidableEq, Repr

/-- Arm causes (R38). -/
inductive ArmCause where
  | timed
  | cue (line : CueLine)
  | take
  | follow
  | ending
  deriving DecidableEq, Repr

/-- The armed slot's content (R39). -/
structure Armed where
  decl : Declaration
  boundary : BoundaryStamp
  cause : ArmCause
  armStamp : AirTime
  lateStart : Bool
  deriving DecidableEq, Repr

/-- The current segment record (R33), with the stamp and return frame number of its latest frame, which its close carries (R45). -/
structure Current where
  decl : Declaration
  startStamp : AirTime
  startRfn : Rfn
  frameCount : Nat
  version : Nat
  lateStart : Bool
  holdoverSeen : Bool
  timeStepSeen : Bool
  overrun : Bool
  absentFrames : Nat
  lostTicks : Nat
  overrunReported : Bool
  lastStamp : AirTime
  lastRfn : Rfn
  deriving DecidableEq, Repr

/-- The break record (R51). -/
structure BreakRecord where
  openingId : BitVec 32
  openStamp : AirTime
  firstRfn : Rfn
  version : Nat
  cls : Fin 8
  members : Nat
  lastMember : BitVec 32
  lastStamp : AirTime
  lastRfn : Rfn
  deriving DecidableEq, Repr

/-- A waiting trigger (chapter 3's table, R39). -/
inductive Waiting where
  | timed
  | follow
  deriving DecidableEq, Repr

/-- The per-outlet state of the Segment Scheduler. -/
structure Sched where
  queue : List Declaration
  armed : Option Armed
  current : Option Current
  brk : Option BreakRecord
  waiting : Option Waiting
  deriving DecidableEq, Repr

/-! ### Loudness Engine (chapter 4) -/

/-- One value for each weighted channel (R57). -/
structure Five (α : Type) where
  l : α
  r : α
  c : α
  ls : α
  rs : α
  deriving DecidableEq, Repr

/-- One value for each of the six channels (R56). -/
structure Six (α : Type) where
  l : α
  r : α
  c : α
  lfe : α
  ls : α
  rs : α
  deriving DecidableEq, Repr

/-- An exact number of the weighting: the coefficients have eight decimals, so every weighted sample is a mantissa over
2^23·10^(8·places) and every sum of their squares a mantissa over 2^46·10^(8·places) (R56, R57, R59). -/
structure Exact where
  mantissa : Int
  places : Nat
  deriving DecidableEq, Repr

/-- The past two inputs and outputs of one section (R58). -/
structure Section where
  x1 : Exact
  x2 : Exact
  y1 : Exact
  y2 : Exact
  deriving DecidableEq, Repr

/-- The filter state of one channel: sections A and B (R57). -/
structure ChannelFilter where
  a : Section
  b : Section
  deriving DecidableEq, Repr

/-- A sub-block in the history: its power and its sample count (R63). -/
structure SubBlock where
  power : Rat
  samples : Nat
  deriving DecidableEq, Repr

/-- What a segment's and a break's loudness record share (R66, R67, R70, R73): 820 bin counts and the rest. -/
structure LoudRecord where
  bins : List Nat
  underRange : Nat
  gatingCount : Nat
  gatingMax : Option Int
  truePeak : Int
  shortTermMax : Option Int
  saturated : Bool
  deriving DecidableEq, Repr

/-- The segment loudness record: also the full sub-block count and the gating window (R59, R65). -/
structure SegLoud where
  full : Nat
  window : List Rat
  record : LoudRecord
  deriving DecidableEq, Repr

/-- The per-outlet state of the Loudness Engine. `taps` holds the last eight samples of each channel, newest first, and
`incomplete` how many of the last four samples' groups still await completion (R69). -/
structure Loud where
  filters : Five ChannelFilter
  gathered : Nat
  sums : Five Exact
  history : List SubBlock
  momentary : Int
  shortTerm : Int
  seg : Option SegLoud
  brk : Option LoudRecord
  taps : Six (List Int)
  incomplete : Nat
  deriving DecidableEq, Repr

/-! ### Subtitle Checker (chapter 5) -/

/-- The gap timer: stopped, running with a value, or expired at 0 (R82 to R85). -/
inductive GapTimer where
  | stopped
  | running (value : Nat)
  | expired
  deriving DecidableEq, Repr

/-- The open gap record (R85); the return frame number is absent when a LOST tick opened the gap. -/
structure OpenGap where
  start : AirTime
  rfn : Option Rfn
  length : Nat
  deriving DecidableEq, Repr

/-- The segment subtitle record (R78, R81, R85, R87). -/
structure SubRecord where
  framesSeen : Nat
  covered : Nat
  wrongLanguage : Nat
  gapCount : Nat
  longestGap : Nat
  deriving DecidableEq, Repr

/-- The per-outlet state of the Subtitle Checker; `showing` is the display state SHOWING (R80). -/
structure Subs where
  showing : Bool
  timer : GapTimer
  limit : Option Nat
  gap : Option OpenGap
  record : Option SubRecord
  deriving DecidableEq, Repr

/-! ### Verdict Unit (chapter 6) -/

/-- Close causes (R45, R54). -/
inductive CloseCause where
  | next
  | restart
  deriving DecidableEq, Repr

/-- A closed segment in its closing slot (R99). `finalPeak` is absent until the final true-peak maximum has come; `member` says
that the segment was a member of the break open at its close. -/
structure ClosedSegment where
  cur : Current
  cause : CloseCause
  stamp : AirTime
  loud : SegLoud
  subs : SubRecord
  excursions : Nat
  member : Bool
  finalPeak : Option Int
  deriving DecidableEq, Repr

/-- A closed break in its closing slot (R99). `finalPeak` says that its last member's final true-peak maximum has been entered. -/
structure ClosedBreak where
  brk : BreakRecord
  cause : CloseCause
  stamp : AirTime
  loud : LoudRecord
  finalPeak : Bool
  deriving DecidableEq, Repr

/-- The per-outlet state of the Verdict Unit; an excursion counter of `none` is OFF (R106). -/
structure VerdictUnit where
  segSlot : Option ClosedSegment
  brkSlot : Option ClosedBreak
  counter : Option Nat
  excursions : Nat
  gapOpen : Bool
  shortTermOver : Bool
  line : Bool
  deriving DecidableEq, Repr

/-! ### Record store (chapter 7) -/

/-- Page states (R114). -/
inductive PageState where
  | empty
  | opened
  | closed
  | released
  deriving DecidableEq, Repr

/-- A Page Directory entry (R114), but for its ring, which the settings in force give. -/
structure PageEntry where
  state : PageState
  sequence : Option (BitVec 32)
  span : Option (AirTime × AirTime)
  rfns : Option (Rfn × Rfn)
  fill : Nat
  frameCount : Nat
  holdCount : Nat
  flags : BitVec 16
  deriving DecidableEq, Repr

/-- A frame record in a write FIFO: its bytes, and what the directory takes from its frame (R116, R122). -/
structure FrameRecord where
  bytes : Bytes
  stamp : AirTime
  rfn : Rfn
  flags : BitVec 16
  deriving DecidableEq, Repr

/-- What a write FIFO holds: frame records, and the close marks a restart puts behind them (R117, R133). -/
inductive FifoItem where
  | record (r : FrameRecord)
  | closeMark
  deriving DecidableEq, Repr

/-- A drop run (R118, R124): a count with the first and last stamp and return frame number. -/
structure DropRun where
  count : Nat
  firstStamp : AirTime
  firstRfn : Rfn
  lastStamp : AirTime
  lastRfn : Rfn
  deriving DecidableEq, Repr

/-- Writer states (R119). -/
inductive WriterMode where
  | idle
  | writing
  | suspended
  deriving DecidableEq, Repr

/-- The record in progress: the FIFO's oldest record, placed in a page at an offset, with the bytes written so far (R119, R122). -/
structure Placed where
  page : Nat
  offset : Nat
  written : Nat
  deriving DecidableEq, Repr

/-- The per-outlet state of a Record Writer. -/
structure Writer where
  mode : WriterMode
  fifo : List FifoItem
  placed : Option Placed
  dropRun : Option DropRun
  suspendRun : Option DropRun
  writePos : Option Nat
  deriving DecidableEq, Repr

/-- Everything the block keeps for one outlet. -/
structure Outlet where
  intake : Intake
  sched : Sched
  loud : Loud
  subs : Subs
  verdict : VerdictUnit
  writer : Writer
  deriving DecidableEq, Repr

/-! ### Holds (chapter 8) -/

/-- The origin of a hold (R135). -/
inductive HoldOrigin where
  | autoSegment (id : BitVec 32)
  | autoBreak (openingId : BitVec 32)
  | manual
  deriving DecidableEq, Repr

/-- An entry of the Hold Table (R135). -/
structure Hold where
  id : Nat
  origin : HoldOrigin
  outlet : OutletId
  spanFirst : AirTime
  spanLast : AirTime
  firstSeq : BitVec 32
  lastSeq : BitVec 32
  pages : Nat
  trimmed : Bool
  beforeOldest : Bool
  placed : AirTime
  deriving DecidableEq, Repr

/-- The hold result of a verdict (R104). -/
inductive HoldResult where
  | none
  | placed (id : Nat)
  | partly (id : Nat)
  | failedFull
  | failedEmpty
  deriving DecidableEq, Repr

/-! ### Evidence records (chapter 9) -/

/-- Loudness outcomes (R100). -/
inductive LoudOutcome where
  | pass
  | high
  | low
  | silent
  | notEvaluated
  deriving DecidableEq, Repr

/-- Short-term outcomes (R101). -/
inductive ShortTermOutcome where
  | pass
  | over
  | notEvaluated
  | none
  deriving DecidableEq, Repr

/-- Subtitle outcomes (R90). -/
inductive SubOutcome where
  | pass
  | gap
  | wrongLanguage
  | exempt
  deriving DecidableEq, Repr

/-- The loudness, short-term, peak and limits groups of a verdict (R102). -/
structure Judgement where
  loudness : LoudOutcome
  integrated : Int
  gate : Option Int
  gatingCount : Nat
  underRange : Nat
  gatingMax : Option Int
  shortTerm : ShortTermOutcome
  shortTermMax : Option Int
  classShortTermMax : Option Int
  peakOver : Bool
  finalPeak : Int
  classPeakMax : Int
  target : Int
  toleranceBelow : Int
  toleranceAbove : Int
  deriving DecidableEq, Repr

/-- What a VERDICT record carries (R102). -/
structure Verdict where
  cur : Current
  cause : CloseCause
  saturated : Bool
  excursions : Nat
  judgement : Judgement
  full : Nat
  subtitle : SubOutcome
  coverage : Nat
  subs : SubRecord
  failed : Bool
  hold : HoldResult
  deriving DecidableEq, Repr

/-- What a BREAK_VERDICT record carries (R103). -/
structure BreakVerdict where
  brk : BreakRecord
  cause : CloseCause
  saturated : Bool
  judgement : Judgement
  failed : Bool
  hold : HoldResult
  deriving DecidableEq, Repr

/-- Causes of a gap's close (R87). -/
inductive GapCause where
  | unit
  | segmentEnd
  | restart
  deriving DecidableEq, Repr

/-- Causes of a late start (R40). -/
inductive LateCause where
  | lateDeclare
  | slotBusy
  | step
  deriving DecidableEq, Repr

/-- Causes of a step of air time (R22). -/
inductive StepCause where
  | lock
  | set
  deriving DecidableEq, Repr

/-- What the Scheduler discarded and closed on one outlet at a restart (R54). -/
structure RestartNote where
  pending : Nat
  armed : Option (BitVec 32)
  closed : Option (BitVec 32)
  deriving DecidableEq, Repr

/-- The bodies of the twenty kinds of evidence record (R186). -/
inductive EvidenceBody where
  | verdict (v : Verdict)
  | breakVerdict (v : BreakVerdict)
  | excursion (id : BitVec 32) (l threshold : Int) (interval : Nat) (cls : Fin 8) (version : Nat)
  | subtitleGap (id : BitVec 32) (obligation : Obligation) (limit : Nat) (start : AirTime) (rfn : Option Rfn) (stop : AirTime)
      (length : Nat) (cause : GapCause)
  | overrun (id : BitVec 32) (duration grace frames : Nat) (head : Option (BitVec 32))
  | lateStart (id : BitVec 32) (start : AirTime) (lateness : Nat) (cause : LateCause)
  | strayCue (line : CueLine) (count : Nat)
  | returnLost (stamp : Option AirTime) (rfn : Option Rfn) (id : BitVec 32)
  | returnRestored (rfn : Rfn) (lostTicks : Nat)
  | timeStep (cause : StepCause) (old new : AirTime) (step : Int) (ref : RefState)
  | referenceLost (pulse : AirTime)
  | referenceRestored (ticks : Nat) (step : Int)
  | pageLost (page : Nat) (entry : PageEntry)
  | frameDrop (run : DropRun)
  | recordSuspend (rfn : Rfn) (policy : Policy) (empty opened closed released held : Nat)
  | recordResume (run : DropRun)
  | holdPlaced (h : Hold) (held budget : Nat)
  | holdReleased (h : Hold) (freed : Nat)
  | profileApplied (version : Nat) (discarded : Option Nat) (staged : Bool)
  | restart (reload cleared : Bool) (notes : Vector RestartNote 8) (waiting : Vector Bool 8) (holdsRemoved discarded aborted : Nat)
  deriving DecidableEq, Repr

/-- What a maker hands to the Evidence Unit: outlet or none, stamp and body (R147). -/
structure Draft where
  outlet : Option OutletId
  stamp : AirTime
  body : EvidenceBody
  deriving DecidableEq, Repr

/-- A created evidence record (R147). -/
structure EvidenceRecord where
  draft : Draft
  sequence : BitVec 32
  lossBefore : Bool
  deriving DecidableEq, Repr

/-- The Evidence Unit (chapter 9). -/
structure Evidence where
  sequence : BitVec 32
  fifo : List EvidenceRecord
  lossPending : Bool
  head : BitVec 32
  tail : BitVec 32
  cursor : BitVec 32
  skipped : Nat
  lost : Nat
  deriving DecidableEq, Repr

/-! ### Message links (chapter 10) -/

/-- A request accepted on a link (R162). -/
structure Request where
  tag : Tag
  code : Byte
  body : Bytes
  deriving DecidableEq, Repr

/-- Response statuses, in the order of their codes (R163, R187). -/
inductive Status where
  | ok
  | short
  | rights
  | badArg
  | unknown
  | duplicate
  | full
  | empty
  | armed
  | busy
  | stale
  | notYet
  | aborted
  | already
  deriving DecidableEq, Repr

/-- Where a declared segment stands (R34). -/
inductive Standing where
  | pending (position depth : Nat)
  | armed (boundary : BoundaryStamp)
  deriving DecidableEq, Repr

/-- Why an image is refused (R176); `check` is the loading's own reason. -/
inductive ImageReason where
  | range
  | ringSize
  | beyondMemory
  | overlap
  | regionSize
  | check
  deriving DecidableEq, Repr

/-- The reduction of a loudness record (R68): SILENT, NOT_EVALUATED, or a value with its relative gate. -/
inductive Reduction where
  | silent
  | notEvaluated
  | value (code gate : Int)
  deriving DecidableEq, Repr

/-- What STATUS says of one outlet (R172). -/
structure OutletStatus where
  state : OutletState
  writer : WriterMode
  depth : Nat
  armed : Bool
  deriving DecidableEq, Repr

/-- What STATUS says of one ring (R172). -/
structure RingStatus where
  pages : Nat
  opened : Nat
  closed : Nat
  released : Nat
  held : Nat
  budget : Nat
  deriving DecidableEq, Repr

/-- The body of a response, by the fields its rule names. -/
inductive Body where
  | none
  | segDeclare (id : BitVec 32) (standing : Standing)
  | segWithdraw (position depth : Nat)
  | segTake (id : BitVec 32) (t : AirTime)
  | segEnd (t : AirTime)
  | segList (state : OutletState) (sched : Sched)
  | timeSet (old new : AirTime) (ref : RefState)
  | cueRead (lines : List (CueLine × CueRecord))
  | profileStage (version : Nat) (discarded : Option Nat)
  | profileRead (slot0 slot1 : Option (ProfileVersion × Nat)) (latestIsOne : Bool)
  | pageList (ring : OutletId) (entries : List (Nat × PageEntry)) (continuation : Option (BitVec 32))
  | pageRead (bytes : Bytes) (state : PageState) (fill : Nat)
  | holdPlace (id : Nat) (firstSeq lastSeq : BitVec 32) (pages : Nat) (trimmed beforeOldest : Bool)
  | holdRelease (id freed : Nat)
  | holdList (holds : List Hold) (rings : List (OutletId × Nat × Nat))
  | evidRead (first : Option (BitVec 32)) (records : List Bytes) (head tail : BitVec 32) (unacknowledged lost : Nat)
      (automation : Option (BitVec 32 × Nat))
  | evidAck (tail : BitVec 32) (unacknowledged lost : Nat)
  | evidStale (tail : BitVec 32)
  | imageRefused (reason : ImageReason)
  | restart (reload cleared : Bool) (sequence : BitVec 32)
  | status (outlets : Vector OutletStatus 8) (ref : RefState) (air : AirTime) (rings : List (OutletId × RingStatus)) (holds : Nat)
      (head tail cursor : BitVec 32) (lost capacity : Nat) (saving : Option Link) (outstanding deferred : Nat)
  | meterRead (momentary shortTerm : Int) (integrated : Option Reduction) (truePeak gatingMax : Option Int)
      (segment : Option (BitVec 32 × Nat)) (showing gapOpen line : Bool)
  | flagsRead (flags : FlagSet) (reason : Option LinkErrorReason) (cause : Option SettingsCause) (evidence : Bool) (mask : Mask)
  | flagsClear (before : FlagSet)
  | maskSet (old new : Mask)
  deriving DecidableEq, Repr

/-- A response formed and not yet fully sent (R165). -/
structure Response where
  tag : Tag
  code : Byte
  status : Status
  body : Body
  deriving DecidableEq, Repr

/-- A memory read of a link (R155, R156, R167). `cleared` marks an EVID-READ that a clearing reload overtook (R160). -/
inductive Fetch where
  | page (tag : Tag) (outlet : OutletId) (sequence : BitVec 32) (page offset length : Nat) (short : Bool)
  | evid (tag : Tag) (first : BitVec 32) (fixed asked : Nat) (cleared : Bool)
  deriving DecidableEq, Repr

/-- An entry of a deferred read table (R166). -/
structure Deferred where
  tag : Tag
  outlet : OutletId
  sequence : BitVec 32
  offset : Nat
  length : Nat
  age : Nat
  deriving DecidableEq, Repr

/-- The state of one Link Port (chapter 10). `held` is the tag of the fetching request the link is carrying out (R164). `givenUp`
counts the reads at the front of the fetch queue that a reset of the link gave up: they wait for their grants as before (R173). -/
structure LinkPort where
  outstanding : List Tag
  requests : List Request
  held : Option Tag
  responses : List Response
  fetches : List Fetch
  givenUp : Nat
  deferred : List Deferred
  flags : FlagSet
  reason : Option LinkErrorReason
  cause : Option SettingsCause
  mask : Mask
  attention : Bool
  resetLine : Bool
  deriving DecidableEq, Repr

/-! ### Memory Arbiter (chapter 7) and restart (chapter 11) -/

/-- The eleven requesters (R130): W0 to W7, EV, and RC or RA as the read of a link. -/
inductive Requester where
  | writer (o : OutletId)
  | evidence
  | reader (l : Link)
  deriving DecidableEq, Repr

/-- The burst in progress on the record-memory port (R130, R152, R167). `abandoned` marks a read given up by a link reset. -/
inductive Burst where
  | record (o : OutletId) (bytes : Nat) (last : Bool)
  | evidence (records : Nat)
  | read (l : Link) (f : Fetch) (abandoned : Bool)
  deriving DecidableEq, Repr

/-- A restart in progress that waits for a burst before it clears (R134, R180): what the earlier steps found, and the tag to
answer, absent once the link was reset. -/
structure RestartProgress where
  reload : Bool
  tag : Option Tag
  notes : Vector RestartNote 8
  aborted : Nat
  deriving DecidableEq, Repr

end Sys2Proof.Machine
end

