-- ==== Sys2Proof/Machine/Defaults.lean ====
section
/-! DEFINITION. The built-in profile and the default image (R178), and the values each piece of state starts from. -/

namespace Sys2Proof.Machine

/-- The class of the built-in profile (R178). -/
def builtInClass : ClassLimits :=
  { target := -2300, toleranceBelow := 100, toleranceAbove := 100, peakMax := -100, shortTermMax := none,
    excursionThreshold := -1800, excursionInterval := 0, holdOnFail := false }

/-- The built-in profile (R178). -/
def builtInProfile : Profile :=
  { classes := Vector.replicate 8 builtInClass, defaultClass := 0, defaultObligation := .required, breakClass := 0,
    gapRequired := 250, gapRelaxed := 750, overrunGrace := 250 }

/-- No flag. -/
def noFlags : FlagSet :=
  { verdict := false, breach := false, record := false, time := false, queueEmpty := false, cue := false, linkError := false,
    settings := false }

/-- The empty mask. -/
def emptyMask : Mask := { flags := noFlags, evidence := false }

/-- The default mask of the default image (R178): SETTINGS, LINK_ERROR and the EVIDENCE condition. -/
def defaultMask : Mask := { flags := { noFlags with linkError := true, settings := true }, evidence := true }

/-- An outlet of the default image (R178). -/
def disabledOutlet : OutletSettings :=
  { enabled := false, ringFirst := 0, ringCount := 8, policy := .overwrite, returnDelay := 0, subtitleService := 0 }

/-- The default image (R178). -/
def defaultImage : Image :=
  { memoryGiB := 1, outlets := Vector.replicate 8 disabledOutlet, regionFirst := 0, regionCount := 16,
    timeAuthority := .compliance,
    high := #v[true, true, true, true, true, true, true, true, true, false, false],
    masks := { automation := defaultMask, compliance := defaultMask }, profile := builtInProfile }

/-- Zero. -/
def Exact.zero : Exact := { mantissa := 0, places := 0 }

/-- A filter at rest (R58). -/
def restSection : Section := { x1 := .zero, x2 := .zero, y1 := .zero, y2 := .zero }

/-- Both sections of a channel at rest (R58). -/
def restFilter : ChannelFilter := { a := restSection, b := restSection }

/-- The same value on each weighted channel. -/
def Five.all {α : Type} (x : α) : Five α := { l := x, r := x, c := x, ls := x, rs := x }

/-- The same value on each of the six channels. -/
def Six.all {α : Type} (x : α) : Six α := { l := x, r := x, c := x, lfe := x, ls := x, rs := x }

/-- The loudness code −120.00, which also stands for "no signal". -/
def silentCode : Int := -12000

/-- Loudness Engine state after power-on or restart (R76). -/
def restLoud : Loud :=
  { filters := Five.all restFilter, gathered := 0, sums := Five.all .zero, history := [], momentary := silentCode,
    shortTerm := silentCode, seg := none, brk := none, taps := Six.all (List.replicate 8 0), incomplete := 0 }

/-- Subtitle Checker state after power-on or restart (R91). -/
def restSubs : Subs := { showing := false, timer := .stopped, limit := none, gap := none, record := none }

/-- Verdict Unit state of an outlet after power-on or restart (R111). -/
def restVerdict : VerdictUnit :=
  { segSlot := none, brkSlot := none, counter := none, excursions := 0, gapOpen := false, shortTermOver := false, line := false }

/-- Scheduler state after power-on or restart (R55). -/
def restSched : Sched := { queue := [], armed := none, current := none, brk := none, waiting := none }

/-- Intake state at power-on, while loading (R15). -/
def powerOnIntake : Intake :=
  { state := .off, rfn := 0, expected := none, lossTimer := 0, lostTicks := 0, lastArrival := none }

/-- Writer state after power-on or a clearing reload (R134). -/
def restWriter : Writer :=
  { mode := .idle, fifo := [], placed := none, dropRun := none, suspendRun := none, writePos := none }

/-- An outlet at power-on. -/
def powerOnOutlet : Outlet :=
  { intake := powerOnIntake, sched := restSched, loud := restLoud, subs := restSubs, verdict := restVerdict, writer := restWriter }

/-- The EMPTY page entry (R114). -/
def emptyPage : PageEntry :=
  { state := .empty, sequence := none, span := none, rfns := none, fill := 0, frameCount := 0, holdCount := 0, flags := 0 }

/-- A cue line at power-on (R30). -/
def restCue : CueRecord := { count := 0, first := none, last := none, acceptedAt := none }

/-- The Time Base at a power-on at instant `t` (R17, R26): the oscillator's first expiry falls 40 ms later. -/
def powerOnTime (t : Instant) : TimeBase :=
  { air := { seconds := 0, frame := 0 }, ref := .unset, previous := none, qualification := 0, holdoverTicks := 0,
    oscillator := some (t + 40000000), lastPulse := none, lastSecond := none, pulseTick := none, pendingSet := none }

/-- Evidence state at power-on or after a clearing reload (R160). -/
def restEvidence : Evidence :=
  { sequence := 0, fifo := [], lossPending := false, head := 0, tail := 0, cursor := 0, skipped := 0, lost := 0 }

/-- A Link Port at power-on, with its reset line input at the level it stands at (R174). -/
def powerOnPort (resetLine : Bool) : LinkPort :=
  { outstanding := [], requests := [], held := none, responses := [], fetches := [], givenUp := 0, deferred := [],
    flags := noFlags, reason := none, cause := none, mask := emptyMask, attention := false, resetLine := resetLine }

end Sys2Proof.Machine
end

