-- ==== Sys2Proof/Machine/State.lean ====
section
/-! DEFINITION. The state of the block, the reasons a step can stop, and the state after power-on. -/

namespace Sys2Proof.Machine

/-- The one fault of the model. -/
inductive Fault where
  /-- Raised by ARBITER_GRANT alone, when the write burst it would grant a Record Writer reaches past the end of record memory
  (R112): an address the spec says does not exist. No state whose settings in force are valid (R176) and whose records in progress
  lie in their pages raises it. SAFE: the machine stops where the spec gives no effect. -/
  | beyondRecordMemory
  deriving DecidableEq, Repr

/-- Why a command could be refused. -/
inductive Refusal where
  /-- Raised by `exec` alone, for a row of the table with no meaning yet (none is left). SAFE: the machine stops. -/
  | notModelled (mnemonic : String)
  deriving DecidableEq, Repr

/-- The state of the block. `free` counts the free values taken and `pending` is the queue of commands: both are the model's. -/
structure State where
  powered : Bool
  loading : Bool
  flash : Flash
  imageCopy : Image
  settings : Image
  save : Option Save
  restarting : Option RestartProgress
  time : TimeBase
  cues : Vector CueRecord 16
  outlets : Vector Outlet 8
  profiles : ProfileStore
  directory : List (Nat × PageEntry)
  pageSeq : BitVec 32
  highPos : Nat
  lowPos : Nat
  port : Option Burst
  memory : List Host.Cell
  holds : List Hold
  holdCounter : Nat
  evidence : Evidence
  links : PerLink LinkPort
  free : Nat
  pending : List Instr
  deriving DecidableEq, Repr

/-- The block right after power-on at instant 0, with loading in progress and no command waiting (R177, and the power-on column
of each chapter's reset table). What serial flash holds, and the image copy and the settings before loading completes, are
DESIGN CHOICE: log entries 7 and 8. -/
def State.reset : State :=
  { powered := true, loading := true, flash := .incomplete, imageCopy := defaultImage, settings := defaultImage, save := none,
    restarting := none, time := powerOnTime 0, cues := Vector.replicate 16 restCue, outlets := Vector.replicate 8 powerOnOutlet,
    profiles := { slot0 := none, slot1 := none, latestIsOne := false }, directory := [], pageSeq := 0, highPos := 0, lowPos := 0,
    port := none, memory := [], holds := [], holdCounter := 0, evidence := restEvidence,
    links := { automation := powerOnPort false, compliance := powerOnPort false }, free := 0, pending := [] }

end Sys2Proof.Machine
end

