-- ==== Sys2Proof/Machine/Flags.lean ====
section
/-! DEFINITION. Flags, masks, the EVIDENCE condition and the attention lines (R159, R169 to R171). -/

namespace Sys2Proof.Machine

/-- The value of a link. -/
def PerLink.get {α : Type} (p : PerLink α) : Link → α
  | .automation => p.automation
  | .compliance => p.compliance

/-- One link's value changed, the other's kept. -/
def PerLink.modify {α : Type} (p : PerLink α) (f : α → α) : Link → PerLink α
  | .automation => { p with automation := f p.automation }
  | .compliance => { p with compliance := f p.compliance }

/-- Both links' values changed. -/
def PerLink.map {α β : Type} (p : PerLink α) (f : α → β) : PerLink β :=
  { automation := f p.automation, compliance := f p.compliance }

/-- The port of a link. -/
def State.link (s : State) (l : Link) : LinkPort := s.links.get l

/-- The state with one link's port changed. -/
def State.modLink (s : State) (l : Link) (f : LinkPort → LinkPort) : State := { s with links := s.links.modify f l }

/-- The state with both ports changed alike. -/
def State.modLinks (s : State) (f : LinkPort → LinkPort) : State := { s with links := s.links.map f }

/-- A flag set with one flag set (R169). -/
def FlagSet.add (f : FlagSet) : Flag → FlagSet
  | .verdict => { f with verdict := true }
  | .breach => { f with breach := true }
  | .record => { f with record := true }
  | .time => { f with time := true }
  | .queueEmpty => { f with queueEmpty := true }
  | .cue => { f with cue := true }
  | .linkError => { f with linkError := true }
  | .settings => { f with settings := true }

/-- The flags of the first set that the second does not name (R170). -/
def FlagSet.minus (f g : FlagSet) : FlagSet :=
  { verdict := f.verdict && !g.verdict, breach := f.breach && !g.breach, record := f.record && !g.record,
    time := f.time && !g.time, queueEmpty := f.queueEmpty && !g.queueEmpty, cue := f.cue && !g.cue,
    linkError := f.linkError && !g.linkError, settings := f.settings && !g.settings }

/-- Do two flag sets share a flag? -/
def FlagSet.meets (f g : FlagSet) : Bool :=
  f.verdict && g.verdict || f.breach && g.breach || f.record && g.record || f.time && g.time ||
    f.queueEmpty && g.queueEmpty || f.cue && g.cue || f.linkError && g.linkError || f.settings && g.settings

/-- A flag raised on a port (R169). -/
def LinkPort.raise (p : LinkPort) (x : Flag) : LinkPort := { p with flags := p.flags.add x }

/-- A flag raised on both links (R169). -/
def State.raiseBoth (s : State) (x : Flag) : State := s.modLinks fun p => p.raise x

/-- LINK_ERROR raised on one link with its reason (R161, R169). -/
def State.raiseLinkError (s : State) (l : Link) (r : LinkErrorReason) : State :=
  s.modLink l fun p => { p.raise .linkError with reason := some r }

/-- SETTINGS raised on both links with its cause (R169). -/
def State.raiseSettings (s : State) (c : SettingsCause) : State :=
  s.modLinks fun p => { p.raise .settings with cause := some c }

/-- The EVIDENCE condition of a link (R159). -/
def Evidence.condition (e : Evidence) : Link → Bool
  | .compliance => e.tail != e.head
  | .automation => e.cursor != e.head

/-- The level of a link's attention line: an enabled flag or condition is present, and its reset line is not asserted (R171,
R173). -/
def LinkPort.level (p : LinkPort) (condition : Bool) : Bool :=
  !p.resetLine && (p.flags.meets p.mask.flags || p.mask.evidence && condition)

/-- Both attention lines evaluated afresh (R171). -/
def State.refresh (s : State) : State :=
  { s with
    links :=
      { automation := { s.links.automation with attention := s.links.automation.level (s.evidence.condition .automation) }
        compliance := { s.links.compliance with attention := s.links.compliance.level (s.evidence.condition .compliance) } } }

end Sys2Proof.Machine
end

