-- ==== Sys2Proof/Config.lean ====
section
/-! DEFINITION. The free values: constants with no body, for what the spec leaves open while the part goes on. -/

namespace Sys2Proof

/-- R62, R70: where the exact value lies within 0.0005 of a halfway point, the part may report either code. The answer for the
n-th formation of a code; true takes the upper code. Log entry 3. -/
opaque Config.upperCode : Nat → Bool

/-- R149, R103, R105, R167: things taken at one instant in either order. The n-th choice among k of them. Log entry 4. -/
opaque Config.orderChoice : Nat → Nat → Nat

/-- R14: the three consumers work on a frame independently. The n-th choice among the orders of their work. Log entry 4. -/
opaque Config.consumerOrder : Nat → Nat

/-- R20: the air time a REFERENCE_LOST record carries when no accepted frame pulse was ever taken as a tick. Log entry 5. -/
opaque Config.lastPulseTick : Nat → AirTime

/-- R38, R188: the byte that stands for the start mode "none" of an UNDECLARED segment in a SEG-LIST response. Log entry 6. -/
opaque Config.startModeNone : Byte

/-- R40, R186: the four bytes of a LATE_START's lateness that does not fit four bytes. Log entry 29. -/
opaque Config.longLateness : Nat → BitVec 32

end Sys2Proof
end

