-- ==== Sys2Proof/Machine/Bytes.lean ====
section
/-! DEFINITION. Bytes and numbers: little-endian fields, signed fields, the two CRCs, and reading fields off a run of bytes (R183). -/

namespace Sys2Proof.Machine

/-- The `n` little-endian bytes of `v`, least significant first (R183). -/
def le : Nat → Nat → Bytes
  | 0, _ => []
  | n + 1, v => BitVec.ofNat 8 v :: le n (v / 256)

/-- The unsigned number that little-endian bytes spell (R183). -/
def unLe : Bytes → Nat
  | [] => 0
  | b :: bs => b.toNat + 256 * unLe bs

/-- The `n` little-endian bytes of a signed number in two's complement (R183). -/
def leSigned (n : Nat) (v : Int) : Bytes := le n (v % (2 ^ (8 * n) : Nat)).toNat

/-- The signed number that an unsigned `n`-byte number spells in two's complement (R183). -/
def signedOf (n v : Nat) : Int := if v < 2 ^ (8 * n - 1) then v else (v : Int) - (2 ^ (8 * n) : Nat)

/-- One byte. -/
def byte (v : Nat) : Bytes := [BitVec.ofNat 8 v]

/-- Yes or no as one byte (R188). -/
def yesNo (b : Bool) : Bytes := byte (if b then 1 else 0)

/-- One bit of a CRC-32 register taken least significant bit first: the polynomial of R183 reflected. -/
def crc32Bit (r : BitVec 32) : BitVec 32 :=
  if r.getLsbD 0 then (r >>> 1) ^^^ 0xEDB88320#32 else r >>> 1

/-- One byte into a CRC-32 register (R183). -/
def crc32Byte (r : BitVec 32) (b : Byte) : BitVec 32 := Nat.repeat crc32Bit 8 (r ^^^ b.setWidth 32)

/-- CRC-32 of air frames and of the stored image: the register starts at all ones and the result is inverted (R183). -/
def crc32 (bs : Bytes) : BitVec 32 := ~~~ (bs.foldl crc32Byte 0xFFFFFFFF#32)

/-- One bit of a CRC-16 register taken most significant bit first (R183). -/
def crc16Bit (r : BitVec 16) : BitVec 16 :=
  if r.getLsbD 15 then (r <<< 1) ^^^ 0x1021#16 else r <<< 1

/-- One byte into a CRC-16 register (R183). -/
def crc16Byte (r : BitVec 16) (b : Byte) : BitVec 16 := Nat.repeat crc16Bit 8 (r ^^^ (b.setWidth 16 <<< 8))

/-- CRC-16 of link messages: the register starts at all ones and the result is not inverted (R183). -/
def crc16 (bs : Bytes) : BitVec 16 := bs.foldl crc16Byte 0xFFFF#16

/-- Take `n` bytes off the front, if there are as many. -/
def takeBytes (n : Nat) (bs : Bytes) : Option (Bytes × Bytes) :=
  if n ≤ bs.length then some (bs.take n, bs.drop n) else none

/-- Take an unsigned number of `n` bytes off the front (R183). -/
def takeNat (n : Nat) (bs : Bytes) : Option (Nat × Bytes) := (takeBytes n bs).map fun p => (unLe p.1, p.2)

/-- Take a signed number of `n` bytes off the front (R183). -/
def takeInt (n : Nat) (bs : Bytes) : Option (Int × Bytes) := (takeNat n bs).map fun p => (signedOf n p.1, p.2)

/-- Take an unsigned number of `n` bytes that lies in a range. -/
def takeRange (n low high : Nat) (bs : Bytes) : Option (Nat × Bytes) :=
  (takeNat n bs).bind fun p => if low ≤ p.1 ∧ p.1 ≤ high then some p else none

/-- Take a signed number of `n` bytes that lies in a range. -/
def takeIntRange (n : Nat) (low high : Int) (bs : Bytes) : Option (Int × Bytes) :=
  (takeInt n bs).bind fun p => if low ≤ p.1 ∧ p.1 ≤ high then some p else none

/-- Take one byte that must be 0 or 1 (R188). -/
def takeBool (bs : Bytes) : Option (Bool × Bytes) := (takeRange 1 0 1 bs).map fun p => (p.1 == 1, p.2)

/-- Take a number below `k` as a `Fin` (one byte). -/
def takeFin (k : Nat) (bs : Bytes) : Option (Fin k × Bytes) :=
  (takeNat 1 bs).bind fun p => if h : p.1 < k then some (⟨p.1, h⟩, p.2) else none

/-- Take an air time (R183); a frame above 24 is out of range, the code for absent included. -/
def takeAirTime (bs : Bytes) : Option (AirTime × Bytes) :=
  (takeNat 4 bs).bind fun p =>
    (takeFin 25 p.2).map fun q => ({ seconds := BitVec.ofNat 32 p.1, frame := q.1 }, q.2)

/-- `n` items taken one after another. -/
def takeMany {α : Type} (take : Bytes → Option (α × Bytes)) : Nat → Bytes → Option (List α × Bytes)
  | 0, bs => some ([], bs)
  | n + 1, bs => (take bs).bind fun p => (takeMany take n p.2).map fun q => (p.1 :: q.1, q.2)

/-- A body is read to its end: bytes left over are a field out of range (R188). -/
def atEnd {α : Type} : Option (α × Bytes) → Option α
  | some (a, []) => some a
  | _ => none

/-- An air time on the wire (R183). -/
def airBytes (t : AirTime) : Bytes := le 4 t.seconds.toNat ++ byte t.frame.val

/-- An air time or absent, whose frame byte is 255 (R183). The seconds bytes of an absent one are written 0. -/
def airBytesOr : Option AirTime → Bytes
  | some t => airBytes t
  | none => le 4 0 ++ byte 255

/-- A return frame number (R183). -/
def rfnBytes (n : Rfn) : Bytes := le 6 n.toNat

/-- A return frame number or absent, all bytes 255 (R183). -/
def rfnBytesOr : Option Rfn → Bytes
  | some n => rfnBytes n
  | none => List.replicate 6 255

/-- A loudness or true-peak code in hundredths (R183). -/
def codeBytes (c : Int) : Bytes := leSigned 2 c

/-- A code, or −32,768 for absent, NOT_EVALUATED or NONE (R183). -/
def codeBytesOr : Option Int → Bytes
  | some c => codeBytes c
  | none => leSigned 2 (-32768)

/-- A segment id. -/
def idBytes (id : BitVec 32) : Bytes := le 4 id.toNat

/-- A language, or three zero bytes for ANY (R183). -/
def languageBytes : Option Language → Bytes
  | some g => [g.a, g.b, g.c]
  | none => [0, 0, 0]

/-- A value "or absent" without an absent code: a list of at most one item (R188). -/
def optionBytes {α : Type} (f : α → Bytes) : Option α → Bytes
  | some a => byte 1 ++ f a
  | none => byte 0

/-- A list: its count in `n` bytes, then its items (R188). -/
def listBytes {α : Type} (n : Nat) (f : α → Bytes) (xs : List α) : Bytes := le n xs.length ++ xs.flatMap f

end Sys2Proof.Machine
end

