-- ==== Sys2Proof/Machine/Operands.lean ====
section
/-! DEFINITION. What commands carry: air frames (R2, R184), link messages (R161, R187) and the bodies of the requests (R188). -/

namespace Sys2Proof.Machine

/-! ### Air frames -/

/-- A well-formed air frame by its fields (R2). `samples` holds one list per sample index, one sample per channel. -/
structure AirFrame where
  outlet : Byte
  sequence : BitVec 16
  layout : Layout
  sampleCount : Nat
  samples : List (List Int)
  units : List SubUnit
  proxy : Bytes
  deriving DecidableEq, Repr

/-- Audio layout codes; an undefined code is taken as NONE (R2, R183). -/
def layoutOf : Nat → Layout
  | 1 => .mono
  | 2 => .stereo
  | 3 => .surround
  | _ => .none

/-- The code of a layout (R183). -/
def layoutCode : Layout → Nat
  | .none => 0
  | .mono => 1
  | .stereo => 2
  | .surround => 3

/-- The number of channels of a layout (R2). -/
def channelsOf : Layout → Nat
  | .none => 0
  | .mono => 1
  | .stereo => 2
  | .surround => 6

/-- Take three language bytes. -/
def takeLanguageBytes (bs : Bytes) : Option (Language × Bytes) :=
  match bs with
  | a :: b :: c :: rest => some ({ a := a, b := b, c := c }, rest)
  | _ => none

/-- Take one byte. -/
def takeByte (bs : Bytes) : Option (Byte × Bytes) :=
  match bs with
  | b :: rest => some (b, rest)
  | [] => none

/-- A subtitle unit; a text length above 96 is not well formed (R2, R184). -/
def takeUnit (bs : Bytes) : Option (SubUnit × Bytes) := do
  let (service, bs) ← takeByte bs
  let (kind, bs) ← takeByte bs
  let (language, bs) ← takeLanguageBytes bs
  let (length, bs) ← takeRange 1 0 96 bs
  let (text, bs) ← takeBytes length bs
  return ({ service := service, kind := kind, language := language, text := text }, bs)

/-- The fields of an air frame without its check, in the order of R184. -/
def takeFrame (bs : Bytes) : Option (AirFrame × Bytes) := do
  let (outlet, bs) ← takeByte bs
  let (sequence, bs) ← takeNat 2 bs
  let (code, bs) ← takeNat 1 bs
  let (count, bs) ← takeRange 2 0 4095 bs
  let (samples, bs) ← takeMany (takeMany (takeInt 3) (channelsOf (layoutOf code))) count bs
  let (unitCount, bs) ← takeRange 1 0 7 bs
  let (units, bs) ← takeMany takeUnit unitCount bs
  let (length, bs) ← takeNat 2 bs
  let (proxy, bs) ← takeBytes length bs
  return ({ outlet := outlet, sequence := BitVec.ofNat 16 sequence, layout := layoutOf code, sampleCount := count,
            samples := samples, units := units, proxy := proxy }, bs)

/-- The air frame that delimited bytes spell, when well formed: a good check, and fields that end at its last byte (R2). -/
def readFrame (bs : Bytes) : Option AirFrame := do
  let (front, check) ← takeBytes (bs.length - 4) bs
  if check.length = 4 ∧ unLe check = (crc32 front).toNat then atEnd (takeFrame front) else none

/-! ### Link messages -/

/-- What a delimited link message turns out to be (R161): discarded with a reason, or a well-formed request. -/
inductive Received where
  | discard (reason : LinkErrorReason)
  | request (r : Request)
  deriving DecidableEq, Repr

/-- A message whose check is good: its type, tag, code, status, body length and body (R161, R187). -/
def readHeader (front : Bytes) : Received :=
  match front with
  | type :: tag :: code :: _status :: low :: high :: body =>
    if (type ≠ 1 ∧ type ≠ 2) ∨ 4352 < unLe [low, high] ∨ body.length ≠ unLe [low, high] then .discard .malformed
    else if type = 2 then .discard .unexpectedResponse
    else .request { tag := tag, code := code, body := body }
  | _ => .discard .malformed

/-- A delimited link message (R161): reason CHECK when the check failed, MALFORMED otherwise. Bytes too few to hold a check are
MALFORMED. -/
def readMessage (bs : Bytes) : Received :=
  if bs.length < 2 then .discard .malformed
  else if unLe (bs.drop (bs.length - 2)) = (crc16 (bs.take (bs.length - 2))).toNat then readHeader (bs.take (bs.length - 2))
  else .discard .check

/-! ### Fields of the requests -/

/-- An outlet field; above 7 is out of range. -/
def takeOutlet (bs : Bytes) : Option (OutletId × Bytes) := takeFin 8 bs

/-- A segment id or a page sequence: four bytes. -/
def takeWord (bs : Bytes) : Option (BitVec 32 × Bytes) := (takeNat 4 bs).map fun p => (BitVec.ofNat 32 p.1, p.2)

/-- Is the byte a lowercase letter? R31 and R183 name no character code: that letters are the ASCII codes 97 to 122 is PRESUMED
(log entry 28). -/
def isLetter (b : Byte) : Bool := decide (97 ≤ b.toNat) && decide (b.toNat ≤ 122)

/-- A declaration's language: three lowercase letters, or three zero bytes for ANY (R31, R183). -/
def takeLanguage (bs : Bytes) : Option (Option Language × Bytes) := do
  let (g, bs) ← takeLanguageBytes bs
  if g.a = 0 ∧ g.b = 0 ∧ g.c = 0 then return (none, bs)
  else if isLetter g.a && isLetter g.b && isLetter g.c then return (some g, bs)
  else none

/-- The kinds a declaration may have, by code (R31, R183). -/
def takeKind (bs : Bytes) : Option (SegKind × Bytes) := do
  let (n, bs) ← takeNat 1 bs
  match n with
  | 1 => return (.programme, bs)
  | 2 => return (.live, bs)
  | 3 => return (.commercial, bs)
  | 4 => return (.promo, bs)
  | 5 => return (.junction, bs)
  | _ => none

/-- An obligation by its code (R183). -/
def takeObligation (bs : Bytes) : Option (Obligation × Bytes) := do
  let (n, bs) ← takeNat 1 bs
  match n with
  | 0 => return (.required, bs)
  | 1 => return (.liveRelaxed, bs)
  | 2 => return (.exempt, bs)
  | _ => none

/-- A start mode: its code, then its parameter if it has one (R31, R188). -/
def takeStart (bs : Bytes) : Option (StartMode × Bytes) := do
  let (n, bs) ← takeNat 1 bs
  match n with
  | 0 => (takeAirTime bs).map fun p => (.timed p.1, p.2)
  | 1 => (takeFin 16 bs).map fun p => (.cued p.1, p.2)
  | 2 => return (.manual, bs)
  | 3 => return (.follow, bs)
  | _ => none

/-- A declaration in range (R31). -/
def takeDeclaration (bs : Bytes) : Option (Declaration × Bytes) := do
  let (id, bs) ← takeRange 4 1 4294967295 bs
  let (kind, bs) ← takeKind bs
  let (cls, bs) ← takeFin 8 bs
  let (obligation, bs) ← takeObligation bs
  let (language, bs) ← takeLanguage bs
  let (start, bs) ← takeStart bs
  let (duration, bs) ← takeRange 4 0 16777215 bs
  return ({ id := BitVec.ofNat 32 id, kind := kind, cls := cls, obligation := obligation, language := language,
            start := some start, duration := duration }, bs)

/-- A flag set from its bits (R188). -/
def flagsOfBits (n : Nat) : FlagSet :=
  { verdict := n.testBit 0, breach := n.testBit 1, record := n.testBit 2, time := n.testBit 3, queueEmpty := n.testBit 4,
    cue := n.testBit 5, linkError := n.testBit 6, settings := n.testBit 7 }

/-- A mask: bits 0 to 7 the flags, bit 8 the EVIDENCE condition (R188). That a mask with a bit from 9 to 15, which names no member,
is out of range, rather than read without that bit, is the model's choice (log entry 35). -/
def takeMask (bs : Bytes) : Option (Mask × Bytes) :=
  (takeRange 2 0 511 bs).map fun p => ({ flags := flagsOfBits p.1, evidence := p.1.testBit 8 }, p.2)

/-! ### Request bodies, each read to its end -/

/-- A request that carries no field. -/
def readNothing (bs : Bytes) : Option Unit := if bs.isEmpty then some () else none

/-- SEG-DECLARE: an outlet and a declaration (R34). -/
def readSegDeclare (bs : Bytes) : Option (OutletId × Declaration) :=
  atEnd do
    let (o, bs) ← takeOutlet bs
    let (d, bs) ← takeDeclaration bs
    return ((o, d), bs)

/-- SEG-WITHDRAW: an outlet and a segment id other than 0 (R35). -/
def readSegWithdraw (bs : Bytes) : Option (OutletId × BitVec 32) :=
  atEnd do
    let (o, bs) ← takeOutlet bs
    let (id, bs) ← takeRange 4 1 4294967295 bs
    return ((o, BitVec.ofNat 32 id), bs)

/-- A request that carries one outlet: SEG-TAKE, SEG-END, SEG-LIST, METER-READ (R36 to R38, R75). -/
def readOutlet (bs : Bytes) : Option OutletId := atEnd (takeOutlet bs)

/-- TIME-SET: one seconds field (R23). -/
def readTimeSet (bs : Bytes) : Option (BitVec 32) := atEnd (takeWord bs)

/-- CUE-READ: a set of cue lines, not empty (R29). -/
def readCueRead (bs : Bytes) : Option Nat := atEnd (takeRange 2 1 65535 bs)

/-- A span of air time, the first not after the last (R126, R141). -/
def takeSpan (bs : Bytes) : Option ((AirTime × AirTime) × Bytes) := do
  let (a, bs) ← takeAirTime bs
  let (b, bs) ← takeAirTime bs
  if a.seconds.toNat * 25 + a.frame.val ≤ b.seconds.toNat * 25 + b.frame.val then return ((a, b), bs) else none

/-- What PAGE-LIST carries (R126): bits 0 to 2 of the filter are OPEN, CLOSED and RELEASED. -/
structure PageListArgs where
  outlet : OutletId
  first : AirTime
  last : AirTime
  filter : Nat
  start : BitVec 32
  deriving DecidableEq, Repr

/-- PAGE-LIST (R126). That a filter with a bit from 3 to 7, which names no state, is out of range is the model's choice (log entry
35). -/
def readPageList (bs : Bytes) : Option PageListArgs :=
  atEnd do
    let (o, bs) ← takeOutlet bs
    let (span, bs) ← takeSpan bs
    let (filter, bs) ← takeRange 1 1 7 bs
    let (start, bs) ← takeWord bs
    return ({ outlet := o, first := span.1, last := span.2, filter := filter, start := start }, bs)

/-- What PAGE-READ carries (R127). -/
structure PageReadArgs where
  outlet : OutletId
  sequence : BitVec 32
  offset : Nat
  length : Nat
  deriving DecidableEq, Repr

/-- PAGE-READ (R127). -/
def readPageRead (bs : Bytes) : Option PageReadArgs :=
  atEnd do
    let (o, bs) ← takeOutlet bs
    let (sequence, bs) ← takeWord bs
    let (offset, bs) ← takeRange 4 0 131071 bs
    let (length, bs) ← takeRange 2 1 4096 bs
    return ({ outlet := o, sequence := sequence, offset := offset, length := length }, bs)

/-- PAGE-RELEASE: an outlet and a page sequence (R129). -/
def readPageRelease (bs : Bytes) : Option (OutletId × BitVec 32) :=
  atEnd do
    let (o, bs) ← takeOutlet bs
    let (sequence, bs) ← takeWord bs
    return ((o, sequence), bs)

/-- HOLD-PLACE: an outlet and a span (R141). -/
def readHoldPlace (bs : Bytes) : Option (OutletId × AirTime × AirTime) :=
  atEnd do
    let (o, bs) ← takeOutlet bs
    let (span, bs) ← takeSpan bs
    return ((o, span), bs)

/-- HOLD-RELEASE: a hold id (R142). -/
def readHoldRelease (bs : Bytes) : Option Nat := atEnd (takeNat 2 bs)

/-- EVID-READ: an offset and a count, in the order in which the link's own rule lists them (R155, R156, R188). -/
def readEvidRead (l : Link) (bs : Bytes) : Option (Nat × Nat) :=
  atEnd
    (match l with
      | .compliance => do
        let (offset, bs) ← takeRange 4 0 131071 bs
        let (count, bs) ← takeRange 1 1 32 bs
        return ((offset, count), bs)
      | .automation => do
        let (count, bs) ← takeRange 1 1 32 bs
        let (offset, bs) ← takeRange 4 0 131071 bs
        return ((offset, count), bs))

/-- EVID-ACK: a count, and an expected tail when the body runs on (R158, R188). -/
def readEvidAck (bs : Bytes) : Option (Nat × Option (BitVec 32)) :=
  atEnd do
    let (n, bs) ← takeRange 4 0 131072 bs
    if bs.isEmpty then return ((n, none), bs)
    else
      let (tail, bs) ← takeWord bs
      return ((n, some tail), bs)

/-- RESTART: reload yes or no (R180). -/
def readRestart (bs : Bytes) : Option Bool := atEnd (takeBool bs)

/-- FLAGS-CLEAR: a set of the eight flags, not empty, and without bit 8, the EVIDENCE condition (R170). That a set with a bit from 9
to 15, which names no flag, is out of range is the model's choice (log entry 35). -/
def readFlagsClear (bs : Bytes) : Option FlagSet := (atEnd (takeRange 2 1 255 bs)).map flagsOfBits

/-- MASK-SET: a mask (R171). -/
def readMaskSet (bs : Bytes) : Option Mask := atEnd (takeMask bs)

/-! ### Profiles and images -/

/-- A class's short-term max: a code, or NONE (R92, R183). -/
def takeShortTermMax (bs : Bytes) : Option (Option Int × Bytes) := do
  let (v, bs) ← takeInt 2 bs
  if v = -32768 then return (none, bs) else if -4000 ≤ v ∧ v ≤ 0 then return (some v, bs) else none

/-- A class with every field in range (R92). -/
def takeClass (bs : Bytes) : Option (ClassLimits × Bytes) := do
  let (target, bs) ← takeIntRange 2 (-4000) (-1000) bs
  let (below, bs) ← takeIntRange 2 0 1000 bs
  let (above, bs) ← takeIntRange 2 0 1000 bs
  let (peak, bs) ← takeIntRange 2 (-2000) 600 bs
  let (shortTerm, bs) ← takeShortTermMax bs
  let (threshold, bs) ← takeIntRange 2 (-4000) 1200 bs
  let (interval, bs) ← takeNat 2 bs
  let (hold, bs) ← takeBool bs
  return ({ target := target, toleranceBelow := below, toleranceAbove := above, peakMax := peak, shortTermMax := shortTerm,
            excursionThreshold := threshold, excursionInterval := interval, holdOnFail := hold }, bs)

/-- A whole profile in range (R92, R93, R96). -/
def takeProfile (bs : Bytes) : Option (Profile × Bytes) := do
  let (classes, bs) ← takeMany takeClass 8 bs
  let (defaultClass, bs) ← takeFin 8 bs
  let (defaultObligation, bs) ← takeObligation bs
  let (breakClass, bs) ← takeFin 8 bs
  let (required, bs) ← takeRange 2 25 65535 bs
  let (relaxed, bs) ← takeRange 2 25 65535 bs
  let (grace, bs) ← takeNat 2 bs
  return ({ classes := Vector.ofFn fun i => classes.getD i.val builtInClass, defaultClass := defaultClass,
            defaultObligation := defaultObligation, breakClass := breakClass, gapRequired := required, gapRelaxed := relaxed,
            overrunGrace := grace }, bs)

/-- PROFILE-STAGE: a whole profile (R96). -/
def readProfileStage (bs : Bytes) : Option Profile := atEnd (takeProfile bs)

/-- A record memory size in GiB (R175). -/
def takeMemorySize (bs : Bytes) : Option (Nat × Bytes) := do
  let (n, bs) ← takeNat 1 bs
  if n = 1 ∨ n = 2 ∨ n = 4 ∨ n = 8 then return (n, bs) else none

/-- A policy by its code (R186). -/
def takePolicy (bs : Bytes) : Option (Policy × Bytes) := do
  let (n, bs) ← takeNat 1 bs
  match n with
  | 1 => return (.overwrite, bs)
  | 2 => return (.stop, bs)
  | _ => none

/-- A time authority: automation 0, compliance 1 (R175, R188). -/
def takeAuthority (bs : Bytes) : Option (Link × Bytes) :=
  (takeBool bs).map fun p => (if p.1 then .compliance else .automation, p.2)

/-- An arbiter group: HIGH 0, LOW 1 (R175, R188); true is HIGH. -/
def takeGroup (bs : Bytes) : Option (Bool × Bytes) := (takeBool bs).map fun p => (!p.1, p.2)

/-- A settings image with every field present and within its values (R175): each field for outlets 0 to 7 in turn, in the order
of R175's table, and of the default masks the automation link's first (log entry 6). -/
def readImage (bs : Bytes) : Option Image :=
  atEnd do
    let (size, bs) ← takeMemorySize bs
    let (enabled, bs) ← takeMany takeBool 8 bs
    let (firsts, bs) ← takeMany (takeNat 2) 8 bs
    let (counts, bs) ← takeMany (takeRange 4 1 65536) 8 bs
    let (policies, bs) ← takeMany takePolicy 8 bs
    let (delays, bs) ← takeMany (takeRange 1 0 250) 8 bs
    let (services, bs) ← takeMany (takeRange 1 0 7) 8 bs
    let (regionFirst, bs) ← takeNat 2 bs
    let (regionCount, bs) ← takeRange 4 1 65536 bs
    let (authority, bs) ← takeAuthority bs
    let (groups, bs) ← takeMany takeGroup 11 bs
    let (maskA, bs) ← takeMask bs
    let (maskC, bs) ← takeMask bs
    let (profile, bs) ← takeProfile bs
    pure
      ({ memoryGiB := size
         outlets := Vector.ofFn fun i =>
           { enabled := enabled.getD i.val false, ringFirst := firsts.getD i.val 0, ringCount := counts.getD i.val 1,
             policy := policies.getD i.val .overwrite, returnDelay := delays.getD i.val 0,
             subtitleService := services.getD i.val 0 }
         regionFirst := regionFirst, regionCount := regionCount, timeAuthority := authority
         high := Vector.ofFn fun i => groups.getD i.val true
         masks := { automation := maskA, compliance := maskC }, profile := profile }, bs)

end Sys2Proof.Machine
end

