-- ==== Sys2Proof/Machine/Records.lean ====
section
/-! DEFINITION. The byte layouts the part writes: evidence records (R186), frame records (R116, R185) and responses (R187, R188). -/

namespace Sys2Proof.Machine

/-! ### Codes (R183, R186, R187) -/

/-- Segment kinds (R183). -/
def kindCode : SegKind → Nat
  | .undeclared => 0
  | .programme => 1
  | .live => 2
  | .commercial => 3
  | .promo => 4
  | .junction => 5

/-- Obligations (R183). -/
def obligationCode : Obligation → Nat
  | .required => 0
  | .liveRelaxed => 1
  | .exempt => 2

/-- Close causes (R183). -/
def closeCode : CloseCause → Nat
  | .next => 1
  | .restart => 2

/-- Loudness outcomes (R183). -/
def loudCode : LoudOutcome → Nat
  | .pass => 0
  | .high => 1
  | .low => 2
  | .silent => 3
  | .notEvaluated => 4

/-- Short-term outcomes (R183). -/
def shortTermCode : ShortTermOutcome → Nat
  | .pass => 0
  | .over => 1
  | .notEvaluated => 2
  | .none => 3

/-- Subtitle outcomes (R183). -/
def subOutcomeCode : SubOutcome → Nat
  | .pass => 0
  | .gap => 1
  | .wrongLanguage => 2
  | .exempt => 3

/-- A hold result and its hold id, or 0 (R183, R186). -/
def holdResultBytes : HoldResult → Bytes
  | .none => byte 0 ++ le 2 0
  | .placed id => byte 1 ++ le 2 id
  | .partly id => byte 2 ++ le 2 id
  | .failedFull => byte 3 ++ le 2 0
  | .failedEmpty => byte 4 ++ le 2 0

/-- Reference states (R186). -/
def refCode : RefState → Nat
  | .unset => 0
  | .locked => 1
  | .holdover => 2

/-- Policies (R186). -/
def policyCode : Policy → Nat
  | .overwrite => 1
  | .stop => 2

/-- Hold origins as evidence records carry them, with the id 0 for MANUAL (R186). -/
def originBytes : HoldOrigin → Bytes
  | .autoSegment id => byte 1 ++ idBytes id
  | .autoBreak id => byte 2 ++ idBytes id
  | .manual => byte 3 ++ idBytes 0

/-- A set of bits, bit 0 first. -/
def bitsOf : List Bool → Nat
  | [] => 0
  | b :: bs => (if b then 1 else 0) + 2 * bitsOf bs

/-- Status codes (R187). -/
def statusCode : Status → Nat
  | .ok => 0
  | .short => 1
  | .rights => 2
  | .badArg => 3
  | .unknown => 4
  | .duplicate => 5
  | .full => 6
  | .empty => 7
  | .armed => 8
  | .busy => 9
  | .stale => 10
  | .notYet => 11
  | .aborted => 12
  | .already => 13

/-! ### Evidence records (R186) -/

/-- Bytes followed by zero bytes up to a length. -/
def padTo (n : Nat) (bs : Bytes) : Bytes := bs ++ List.replicate (n - bs.length) 0

/-- The loudness, short-term, peak and limits groups at body offsets 50 to 84; a break's full sub-block count is written 0. -/
def judgementBytes (j : Judgement) (full : Nat) : Bytes :=
  byte (loudCode j.loudness) ++ codeBytes j.integrated ++ codeBytesOr j.gate ++ le 4 j.gatingCount ++ le 4 j.underRange ++
    codeBytesOr j.gatingMax ++ le 4 full ++ byte (shortTermCode j.shortTerm) ++ codeBytesOr j.shortTermMax ++
    codeBytesOr j.classShortTermMax ++ yesNo j.peakOver ++ codeBytes j.finalPeak ++ codeBytes j.classPeakMax ++
    codeBytes j.target ++ codeBytes j.toleranceBelow ++ codeBytes j.toleranceAbove

/-- The VERDICT body (R186). -/
def verdictBytes (v : Verdict) : Bytes :=
  idBytes v.cur.decl.id ++ byte (kindCode v.cur.decl.kind) ++ byte v.cur.decl.cls.val ++
    byte (obligationCode v.cur.decl.obligation) ++ languageBytes v.cur.decl.language ++ le 2 v.cur.version ++
    airBytes v.cur.startStamp ++ rfnBytes v.cur.startRfn ++ airBytes v.cur.lastStamp ++ rfnBytes v.cur.lastRfn ++
    le 3 v.cur.frameCount ++ byte (closeCode v.cause) ++
    byte (bitsOf [v.cur.lateStart, v.cur.holdoverSeen, v.cur.timeStepSeen, v.cur.overrun, v.saturated]) ++
    le 3 v.cur.absentFrames ++ le 4 v.cur.lostTicks ++ le 4 v.excursions ++ judgementBytes v.judgement v.full ++
    byte (subOutcomeCode v.subtitle) ++ le 2 v.coverage ++ le 3 v.subs.framesSeen ++ le 3 v.subs.covered ++
    le 4 v.subs.gapCount ++ le 4 v.subs.longestGap ++ le 4 v.subs.wrongLanguage ++ yesNo v.failed ++ holdResultBytes v.hold

/-- The BREAK_VERDICT body (R186). -/
def breakVerdictBytes (v : BreakVerdict) : Bytes :=
  idBytes v.brk.openingId ++ idBytes v.brk.lastMember ++ le 2 v.brk.members ++ le 2 v.brk.version ++
    airBytes v.brk.openStamp ++ rfnBytes v.brk.firstRfn ++ airBytes v.brk.lastStamp ++ rfnBytes v.brk.lastRfn ++
    byte v.brk.cls.val ++ le 2 0 ++ byte (closeCode v.cause) ++ byte (bitsOf [false, false, false, false, v.saturated]) ++
    List.replicate 11 0 ++ judgementBytes v.judgement 0 ++ List.replicate 21 0 ++ yesNo v.failed ++ holdResultBytes v.hold

/-- A drop run as FRAME_DROP and RECORD_RESUME carry it (R186). -/
def dropRunBytes (r : DropRun) : Bytes :=
  le 4 r.count ++ airBytes r.firstStamp ++ airBytes r.lastStamp ++ rfnBytes r.firstRfn ++ rfnBytes r.lastRfn

/-- One outlet of a RESTART body: 10 bytes (R186). -/
def restartNoteBytes (n : RestartNote) (waiting : Bool) : Bytes :=
  byte n.pending ++ byte (bitsOf [n.armed.isSome, n.closed.isSome, waiting]) ++ idBytes (n.armed.getD 0) ++ idBytes (n.closed.getD 0)

/-- A lateness in its four bytes; the spec states no value for one that does not fit, and a free value stands there (R40, R186; log
entry 29). -/
def latenessBytes (lateness : Nat) : Bytes :=
  if lateness < 2 ^ 32 then le 4 lateness else idBytes (Config.longLateness lateness)

/-- The fields of an evidence body, before its padding (R186). -/
def evidenceFields : EvidenceBody → Bytes
  | .verdict v => verdictBytes v
  | .breakVerdict v => breakVerdictBytes v
  | .excursion id l threshold interval cls version =>
    idBytes id ++ codeBytes l ++ codeBytes threshold ++ le 2 interval ++ byte cls.val ++ le 2 version
  | .subtitleGap id obligation limit start rfn stop length cause =>
    idBytes id ++ byte (obligationCode obligation) ++ le 2 limit ++ airBytes start ++ rfnBytesOr rfn ++ airBytes stop ++
      le 4 length ++ byte (match cause with | .unit => 1 | .segmentEnd => 2 | .restart => 3)
  | .overrun id duration grace frames head =>
    idBytes id ++ le 3 duration ++ le 2 grace ++ le 3 frames ++ idBytes (head.getD 0) ++ yesNo head.isSome
  | .lateStart id start lateness cause =>
    idBytes id ++ airBytes start ++ latenessBytes lateness ++ byte (match cause with | .lateDeclare => 1 | .slotBusy => 2 | .step => 3)
  | .strayCue line count => byte line.val ++ byte count
  | .returnLost stamp rfn id => airBytesOr stamp ++ rfnBytesOr rfn ++ idBytes id
  | .returnRestored rfn lostTicks => rfnBytes rfn ++ le 4 lostTicks
  | .timeStep cause old new step ref =>
    byte (match cause with | .lock => 1 | .set => 2) ++ airBytes old ++ airBytes new ++ leSigned 8 step ++ byte (refCode ref)
  | .referenceLost pulse => airBytes pulse
  | .referenceRestored ticks step => le 4 ticks ++ leSigned 8 step
  | .pageLost page entry =>
    le 2 page ++ idBytes (entry.sequence.getD 0) ++ airBytesOr (entry.span.map (·.1)) ++ airBytesOr (entry.span.map (·.2)) ++
      rfnBytesOr (entry.rfns.map (·.1)) ++ rfnBytesOr (entry.rfns.map (·.2)) ++ le 2 entry.frameCount ++ le 2 entry.flags.toNat
  | .frameDrop run => dropRunBytes run
  | .recordSuspend rfn policy empty opened closed released held =>
    rfnBytes rfn ++ byte (policyCode policy) ++ le 2 empty ++ le 2 opened ++ le 2 closed ++ le 2 released ++ le 2 held
  | .recordResume run => dropRunBytes run
  | .holdPlaced h held budget =>
    le 2 h.id ++ originBytes h.origin ++ airBytes h.spanFirst ++ airBytes h.spanLast ++ idBytes h.firstSeq ++
      idBytes h.lastSeq ++ le 2 h.pages ++ byte (bitsOf [h.trimmed, h.beforeOldest]) ++ le 2 held ++ le 2 budget
  | .holdReleased h freed =>
    le 2 h.id ++ originBytes h.origin ++ idBytes h.firstSeq ++ idBytes h.lastSeq ++ le 2 h.pages ++ le 2 freed ++
      airBytes h.placed
  | .profileApplied version discarded staged => le 2 version ++ le 2 (discarded.getD 0) ++ byte (if staged then 2 else 1)
  | .restart reload cleared notes waiting holdsRemoved discarded aborted =>
    yesNo reload ++ byte (if cleared then 2 else 1) ++
      (List.zipWith restartNoteBytes notes.toList waiting.toList).flatten ++ byte holdsRemoved ++ le 4 discarded ++ byte aborted

/-- The kind code of a record (R186). -/
def evidenceKind : EvidenceBody → Nat
  | .verdict _ => 1
  | .breakVerdict _ => 2
  | .excursion .. => 3
  | .subtitleGap .. => 4
  | .overrun .. => 5
  | .lateStart .. => 6
  | .strayCue .. => 7
  | .returnLost .. => 8
  | .returnRestored .. => 9
  | .timeStep .. => 10
  | .referenceLost _ => 11
  | .referenceRestored .. => 12
  | .pageLost .. => 13
  | .frameDrop _ => 14
  | .recordSuspend .. => 15
  | .recordResume _ => 16
  | .holdPlaced .. => 17
  | .holdReleased .. => 18
  | .profileApplied .. => 19
  | .restart .. => 20

/-- An evidence record's 128 bytes: common header, then body (R186). -/
def EvidenceRecord.bytes (r : EvidenceRecord) : Bytes :=
  byte (evidenceKind r.draft.body) ++ byte (match r.draft.outlet with | some o => o.val | none => 255) ++ yesNo r.lossBefore ++
    byte 0 ++ idBytes r.sequence ++ airBytes r.draft.stamp ++ List.replicate 3 0 ++ padTo 112 (evidenceFields r.draft.body)

/-! ### Frame records (R116, R185) -/

/-- A 24-bit sample reduced to 16 bits (R116). -/
def sample16 (s : Int) : Int := min 32767 ((s + 128) / 256)

/-- A kept unit: its 8-byte header and its text (R185). -/
def unitBytes (u : SubUnit) : Bytes :=
  [u.service, u.kind, u.language.a, u.language.b, u.language.c] ++ byte u.text.length ++ le 2 0 ++ u.text

/-- The content of one frame record, as Intake hands it to the Record Writer (R14). -/
structure RecordContent where
  outlet : Byte
  sequence : BitVec 16
  rfn : Rfn
  stamp : AirTime
  segment : BitVec 32
  flags : BitVec 16
  layout : Layout
  samples : List (List Int)
  units : List SubUnit
  proxy : Bytes
  deriving DecidableEq, Repr

/-- The audio, units and proxy parts (R116). -/
def RecordContent.parts (c : RecordContent) : Bytes :=
  (c.samples.flatMap fun xs => xs.flatMap fun s => leSigned 2 (sample16 s)) ++ c.units.flatMap unitBytes ++ c.proxy

/-- The record length: padded to a multiple of 16 (R116). -/
def RecordContent.length (c : RecordContent) : Nat := (32 + c.parts.length + 15) / 16 * 16

/-- The bytes of a frame record (R185). -/
def RecordContent.bytes (c : RecordContent) : Bytes :=
  padTo c.length
    (le 2 c.length ++ [c.outlet] ++ byte (layoutCode c.layout) ++ le 2 c.sequence.toNat ++ rfnBytes c.rfn ++ airBytes c.stamp ++
      byte c.units.length ++ le 2 c.flags.toNat ++ idBytes c.segment ++ le 2 (if c.layout = .none then 0 else 1920) ++
      le 2 c.proxy.length ++ le 4 0 ++ c.parts)

/-! ### Responses (R187, R188) -/

/-- A flag set's eight bits (R188). -/
def flagBits (f : FlagSet) : List Bool := [f.verdict, f.breach, f.record, f.time, f.queueEmpty, f.cue, f.linkError, f.settings]

/-- A set of flags in two bytes (R188). -/
def flagSetBytes (f : FlagSet) : Bytes := le 2 (bitsOf (flagBits f))

/-- A mask in two bytes (R188). -/
def maskBytes (m : Mask) : Bytes := le 2 (bitsOf (flagBits m.flags ++ [m.evidence]))

/-- A start mode with its parameter; an UNDECLARED segment's has no code in the spec (R31, R48, R188). -/
def startBytes : Option StartMode → Bytes
  | some (.timed t) => byte 0 ++ airBytes t
  | some (.cued k) => byte 1 ++ byte k.val
  | some .manual => byte 2
  | some .follow => byte 3
  | none => [Config.startModeNone]

/-- A declaration's fields, in the order of R31. -/
def declarationBytes (d : Declaration) : Bytes :=
  idBytes d.id ++ byte (kindCode d.kind) ++ byte d.cls.val ++ byte (obligationCode d.obligation) ++ languageBytes d.language ++
    startBytes d.start ++ le 4 d.duration

/-- T, or NEXT_FRAME (R38). -/
def boundaryBytes : BoundaryStamp → Bytes
  | .stamp t => byte 0 ++ airBytes t
  | .nextFrame => byte 1

/-- An arm cause with its line (R38, R188). -/
def armCauseBytes : ArmCause → Bytes
  | .timed => byte 0
  | .cue k => byte 1 ++ byte k.val
  | .take => byte 2
  | .follow => byte 3
  | .ending => byte 4

/-- The armed slot (R38): a declaration, or the UNDECLARED marker. -/
def armedBytes (a : Armed) : Bytes :=
  (if a.decl.kind = .undeclared then byte 1 else byte 0 ++ declarationBytes a.decl) ++ boundaryBytes a.boundary ++
    armCauseBytes a.cause ++ airBytes a.armStamp ++ yesNo a.lateStart

/-- The current segment record (R33). -/
def currentBytes (c : Current) : Bytes :=
  declarationBytes c.decl ++ airBytes c.startStamp ++ rfnBytes c.startRfn ++ le 4 c.frameCount ++ le 2 c.version ++
    yesNo c.lateStart ++ yesNo c.holdoverSeen ++ yesNo c.timeStepSeen ++ yesNo c.overrun ++ le 4 c.absentFrames ++
    le 4 c.lostTicks ++ yesNo c.overrunReported

/-- The break record of SEG-LIST: the rows of R51's table but its last, the break loudness, which the Loudness Engine holds. That
the last row is left out is the model's reading (log entry 6). -/
def breakBytes (b : BreakRecord) : Bytes :=
  idBytes b.openingId ++ airBytes b.openStamp ++ rfnBytes b.firstRfn ++ le 2 b.version ++ byte b.cls.val ++ le 2 b.members ++
    idBytes b.lastMember ++ airBytes b.lastStamp ++ rfnBytes b.lastRfn

/-- Outlet states (R11, R188). -/
def outletStateCode : OutletState → Nat
  | .off => 0
  | .waiting => 1
  | .active => 2
  | .lost => 3

/-- Page states (R114, R188). -/
def pageStateCode : PageState → Nat
  | .empty => 0
  | .opened => 1
  | .closed => 2
  | .released => 3

/-- Writer states (R119, R188). -/
def writerCode : WriterMode → Nat
  | .idle => 0
  | .writing => 1
  | .suspended => 2

/-- A class's fields, in the order of R92. -/
def classBytes (c : ClassLimits) : Bytes :=
  codeBytes c.target ++ codeBytes c.toleranceBelow ++ codeBytes c.toleranceAbove ++ codeBytes c.peakMax ++
    codeBytesOr c.shortTermMax ++ codeBytes c.excursionThreshold ++ le 2 c.excursionInterval ++ yesNo c.holdOnFail

/-- A whole profile (R92, R93). That its eight classes come without a count is the model's reading (log entry 6). -/
def profileBytes (p : Profile) : Bytes :=
  p.classes.toList.flatMap classBytes ++ byte p.defaultClass.val ++ byte (obligationCode p.defaultObligation) ++
    byte p.breakClass.val ++ le 2 p.gapRequired ++ le 2 p.gapRelaxed ++ le 2 p.overrunGrace

/-- A directory entry with its page number and ring (R114, R126). -/
def pageEntryBytes (ring : OutletId) (p : Nat × PageEntry) : Bytes :=
  le 2 p.1 ++ byte (pageStateCode p.2.state) ++ byte ring.val ++ idBytes (p.2.sequence.getD 0) ++
    airBytesOr (p.2.span.map (·.1)) ++ airBytesOr (p.2.span.map (·.2)) ++ rfnBytesOr (p.2.rfns.map (·.1)) ++
    rfnBytesOr (p.2.rfns.map (·.2)) ++ le 4 p.2.fill ++ le 2 p.2.frameCount ++ byte p.2.holdCount ++ le 2 p.2.flags.toNat

/-- An origin in HOLD-LIST: its code, followed by the id it carries when it has one (R135, R188). -/
def listedOriginBytes : HoldOrigin → Bytes
  | .autoSegment id => byte 1 ++ idBytes id
  | .autoBreak id => byte 2 ++ idBytes id
  | .manual => byte 3

/-- A hold entry's fields (R135). -/
def holdBytes (h : Hold) : Bytes :=
  le 2 h.id ++ listedOriginBytes h.origin ++ byte h.outlet.val ++ airBytes h.spanFirst ++ airBytes h.spanLast ++ idBytes h.firstSeq ++
    idBytes h.lastSeq ++ le 2 h.pages ++ byte (bitsOf [h.trimmed, h.beforeOldest]) ++ airBytes h.placed

/-- The integrated so far: outcome (a value 0, SILENT 1, NOT_EVALUATED 2) and code (R75). That the outcomes are coded in the order
of R75, and not as the loudness outcomes of R183, is the model's reading (log entry 6). -/
def reductionBytes : Reduction → Bytes
  | .value code _ => byte 0 ++ codeBytes code
  | .silent => byte 1 ++ codeBytes (-12000)
  | .notEvaluated => byte 2 ++ codeBytes (-12000)

/-- A LINK_ERROR reason (R169). -/
def reasonCode : LinkErrorReason → Nat
  | .check => 0
  | .malformed => 1
  | .unexpectedResponse => 2
  | .duplicateTag => 3
  | .tooMany => 4

/-- The reason an image is refused (R176). -/
def imageReasonCode : ImageReason → Nat
  | .range => 0
  | .ringSize => 1
  | .beyondMemory => 2
  | .overlap => 3
  | .regionSize => 4
  | .check => 5

/-- A link: automation 0, compliance 1. -/
def linkCode : Link → Nat
  | .automation => 0
  | .compliance => 1

/-- The bytes of a response body: the fields its rule names, in the rule's order (R188). Among the model's readings (log entry 6):
a field that its rule gives as "none", "empty", "absent", "END" or "of those that are set", and for which R183 has no absent code,
is a list of at most one item, where R188 says so only of "or absent": the version discarded of PROFILE-STAGE (R96), each of the two
slots of PROFILE-READ (R98), which come without a count, the LINK_ERROR reason and SETTINGS cause of FLAGS-READ (R170), the current
segment, armed slot, waiting trigger and break of SEG-LIST, the continuation of PAGE-LIST, the first position of EVID-READ, and the
integrated so far and segment of METER-READ; the rings of HOLD-LIST and of STATUS are a
list, each beginning with its outlet; the eight outlets of STATUS come without a count, its counts of CLOSED and RELEASED pages take
4 bytes and that of OPEN pages 1, and its save in flight is a list of at most one link; the breach line of METER-READ is a yes or
no, 1 for asserted. -/
def bodyBytes : Body → Bytes
  | .none => []
  | .segDeclare id standing =>
    idBytes id ++ (match standing with
      | .pending position depth => byte 0 ++ byte position ++ byte depth
      | .armed boundary => byte 1 ++ boundaryBytes boundary)
  | .segWithdraw position depth => byte position ++ byte depth
  | .segTake id t => idBytes id ++ airBytes t
  | .segEnd t => airBytes t
  | .segList state sched =>
    byte (outletStateCode state) ++ optionBytes currentBytes sched.current ++ optionBytes armedBytes sched.armed ++
      optionBytes (fun w => byte (match w with | .timed => 0 | .follow => 1)) sched.waiting ++
      listBytes 1 declarationBytes sched.queue ++ byte sched.queue.length ++ optionBytes breakBytes sched.brk
  | .timeSet old new ref => airBytes old ++ airBytes new ++ byte (refCode ref)
  | .cueRead lines =>
    listBytes 1 (fun p => byte p.1.val ++ byte p.2.count ++ airBytesOr p.2.first ++ airBytesOr p.2.last) lines
  | .profileStage version discarded => le 2 version ++ optionBytes (le 2) discarded
  | .profileRead slot0 slot1 latestIsOne =>
    optionBytes slotBytes slot0 ++ optionBytes slotBytes slot1 ++ byte (if latestIsOne then 1 else 0)
  | .pageList ring entries continuation => listBytes 1 (pageEntryBytes ring) entries ++ optionBytes idBytes continuation
  | .pageRead bytes state fill => le 2 bytes.length ++ bytes ++ byte (pageStateCode state) ++ le 4 fill
  | .holdPlace id firstSeq lastSeq pages trimmed beforeOldest =>
    le 2 id ++ idBytes firstSeq ++ idBytes lastSeq ++ le 2 pages ++ byte (bitsOf [trimmed, beforeOldest])
  | .holdRelease id freed => le 2 id ++ le 2 freed
  | .holdList holds rings =>
    byte holds.length ++ listBytes 1 holdBytes holds ++ listBytes 1 (fun r => byte r.1.val ++ le 2 r.2.1 ++ le 2 r.2.2) rings
  | .evidRead first records head tail unacknowledged lost automation =>
    optionBytes idBytes first ++ listBytes 1 id records ++ idBytes head ++ idBytes tail ++ le 4 unacknowledged ++ le 4 lost ++
      (match automation with | some (cursor, skipped) => idBytes cursor ++ le 4 skipped | none => [])
  | .evidAck tail unacknowledged lost => idBytes tail ++ le 4 unacknowledged ++ le 4 lost
  | .evidStale tail => idBytes tail
  | .imageRefused reason => byte (imageReasonCode reason)
  | .restart reload cleared sequence => yesNo reload ++ byte (if cleared then 2 else 1) ++ idBytes sequence
  | .status outlets ref air rings holds head tail cursor lost capacity saving outstanding deferred =>
    outlets.toList.flatMap (fun o => byte (outletStateCode o.state) ++ byte (writerCode o.writer) ++ byte o.depth ++ yesNo o.armed) ++
      byte (refCode ref) ++ airBytes air ++
      listBytes 1 (fun r => byte r.1.val ++ le 4 r.2.pages ++ byte r.2.opened ++ le 4 r.2.closed ++ le 4 r.2.released ++
        le 2 r.2.held ++ le 2 r.2.budget) rings ++
      byte holds ++ idBytes head ++ idBytes tail ++ idBytes cursor ++ le 4 lost ++ le 4 capacity ++
      optionBytes (fun l => byte (linkCode l)) saving ++ byte outstanding ++ byte deferred
  | .meterRead momentary shortTerm integrated truePeak gatingMax segment showing gapOpen line =>
    codeBytes momentary ++ codeBytes shortTerm ++ optionBytes reductionBytes integrated ++ codeBytesOr truePeak ++
      codeBytesOr gatingMax ++ optionBytes (fun p => idBytes p.1 ++ le 4 p.2) segment ++ yesNo showing ++ yesNo gapOpen ++ yesNo line
  | .flagsRead flags reason cause evidence mask =>
    flagSetBytes flags ++ optionBytes (fun r => byte (reasonCode r)) reason ++
      optionBytes (fun c => byte (match c with | .defaults => 0 | .saved => 1)) cause ++ yesNo evidence ++ maskBytes mask
  | .flagsClear before => flagSetBytes before
  | .maskSet old new => maskBytes old ++ maskBytes new
where
  /-- A profile slot: version, whole profile and reference count (R98). -/
  slotBytes (p : ProfileVersion × Nat) : Bytes := le 2 p.1.version ++ profileBytes p.1.profile ++ byte p.2

/-- The message a response is sent as: header, body and CRC-16 (R187). -/
def Response.wire (r : Response) : Bytes :=
  let front := byte 2 ++ [r.tag, r.code] ++ byte (statusCode r.status) ++ le 2 (bodyBytes r.body).length ++ bodyBytes r.body
  front ++ le 2 (crc16 front).toNat

end Sys2Proof.Machine
end

