-- ==== Sys2Proof/Machine/Time.lean ====
section
/-! DEFINITION. Arithmetic of air time (R16, R22, R39). -/

namespace Sys2Proof

/-- The number of frames since 0:0: seconds × 25 + frame (R22, R40). -/
def AirTime.frames (t : AirTime) : Nat := t.seconds.toNat * 25 + t.frame.val

/-- The air time `n` frames after 0:0; seconds of 4,294,967,295 wrap to 0 (R16). -/
def AirTime.ofFrames (n : Nat) : AirTime :=
  { seconds := BitVec.ofNat 32 (n / 25), frame := ⟨n % 25, Nat.mod_lt _ (by decide)⟩ }

/-- An air time plus a number of frames (R16, R39). -/
def AirTime.add (t : AirTime) (n : Nat) : AirTime := AirTime.ofFrames (t.frames + n)

/-- One frame tick (R16). -/
def AirTime.tick (t : AirTime) : AirTime := t.add 1

/-- Air times are ordered first by seconds, then by frame: at or before (00_scope.md, Conventions). -/
def AirTime.atOrBefore (t u : AirTime) : Bool := decide (t.frames ≤ u.frames)

/-- Strictly before. -/
def AirTime.before (t u : AirTime) : Bool := decide (t.frames < u.frames)

/-- The earlier of two air times. -/
def AirTime.earlier (t u : AirTime) : AirTime := if u.before t then u else t

/-- The later of two air times. -/
def AirTime.later (t u : AirTime) : AirTime := if t.before u then u else t

/-- The signed step in frames from `old` to `new`, without wrap (R22). -/
def AirTime.stepTo (old new : AirTime) : Int := (new.frames : Int) - old.frames

/-- Air time rounded to the nearest whole second: a frame of 13 or more goes up (R21). -/
def AirTime.rounded (t : AirTime) : AirTime :=
  if 13 ≤ t.frame.val then { seconds := t.seconds + 1, frame := 0 } else { seconds := t.seconds, frame := 0 }

end Sys2Proof

namespace Sys2Proof.Machine

/-- An increment that stops at a largest value (00_scope.md, Conventions). -/
def satAdd (limit n k : Nat) : Nat := min limit (n + k)

/-- The largest 32-bit count. -/
def max32 : Nat := 4294967295

/-- The largest 24-bit count. -/
def max24 : Nat := 16777215

/-- Milliseconds as an instant's nanoseconds. -/
def ms (n : Nat) : Instant := n * 1000000

end Sys2Proof.Machine
end

