-- ==== Sys2Proof/Machine/Ops.lean ====
section
/-! DEFINITION. The operations every family shares: outcomes, outlets, record memory, evidence hand-over, things taken in either
order, and taking and answering requests. -/

namespace Sys2Proof.Machine

/-! ### Outcomes -/

/-- A command's effect is done: the attention lines are evaluated, since they change at once (R171). -/
def done (s : State) : Host.Outcome State Fault Refusal := .next s.refresh

/-- A command that changes nothing. -/
def idle (s : State) : Host.Outcome State Fault Refusal := .next s

/-- A command takes effect where its condition holds and otherwise comes to nothing (log entry 1). -/
def when (c : Bool) (effect s : State) : Host.Outcome State Fault Refusal := if c then done effect else idle s

/-! ### Outlets -/

/-- An outlet's state. -/
def State.outlet (s : State) (o : OutletId) : Outlet := s.outlets[o]

/-- The state with one outlet changed. -/
def State.modOutlet (s : State) (o : OutletId) (f : Outlet → Outlet) : State :=
  { s with outlets := s.outlets.set o (f s.outlets[o]) }

/-- Every outlet, in order. -/
def allOutlets : List OutletId := List.finRange 8

/-- An effect on each outlet in turn. -/
def State.eachOutlet (s : State) (f : OutletId → State → State) : State := allOutlets.foldl (fun s o => f o s) s

/-- The settings in force for an outlet (R175). -/
def State.outletSettings (s : State) (o : OutletId) : OutletSettings := s.settings.outlets[o]

/-- The air time an outlet's return delay after a time (R14). -/
def State.delayed (s : State) (o : OutletId) (t : AirTime) : AirTime := t.add (s.outletSettings o).returnDelay

/-! ### Free values -/

/-- The state with `k` free values used up. -/
def State.useFree (s : State) (k : Nat) : State := { s with free := s.free + k }

/-- The items of a list in an order the spec leaves open: each choice is a free value (log entry 4). A list of at most one item
needs no choice. -/
def shuffle {α : Type} (n : Nat) : Nat → List α → List α
  | 0, xs => xs
  | _ + 1, [] => []
  | _ + 1, [x] => [x]
  | fuel + 1, x :: y :: rest =>
    let xs := x :: y :: rest
    let i := Config.orderChoice n xs.length % xs.length
    match xs[i]? with
    | some z => z :: shuffle n fuel (xs.eraseIdx i)
    | none => xs

/-- The order the `s.free`-th choice gives to a list. -/
def State.shuffled {α : Type} (s : State) (xs : List α) : List α := shuffle s.free xs.length xs

/-! ### Record memory (R112) -/

/-- The size of a page (R112). -/
def pageSize : Nat := 131072

/-- The size of record memory in bytes (R112). -/
def State.memorySize (s : State) : Nat := s.settings.memoryGiB * 1073741824

/-- What a byte of record memory that nothing has written reads as; no request returns one (log entry 9). -/
def unwritten : Byte := 0

/-- Record memory: cells at strictly rising addresses, none equal to what an unlisted address reads as. -/
def memoryWf (m : List Host.Cell) : Bool :=
  decide (m.Pairwise fun c d => c.1 < d.1) && m.all fun c => c.2 != unwritten

/-- The byte at an address. -/
def readByte (m : List Host.Cell) (a : Nat) : Byte :=
  match m.find? fun c => c.1 == a with
  | some c => c.2
  | none => unwritten

/-- `n` bytes from an address on. -/
def readBytes (m : List Host.Cell) (a n : Nat) : Bytes := (List.range n).map fun i => readByte m (a + i)

/-- The cells that bytes make from an address on. -/
def cellsOf : Nat → Bytes → List Host.Cell
  | _, [] => []
  | a, b :: bs => if b = unwritten then cellsOf (a + 1) bs else (a, b) :: cellsOf (a + 1) bs

/-- Bytes written from an address on; the canonical form is kept. -/
def writeBytes (m : List Host.Cell) (a : Nat) (bs : Bytes) : List Host.Cell :=
  (m.filter fun c => decide (c.1 < a)) ++ cellsOf a bs ++ m.filter fun c => decide (a + bs.length ≤ c.1)

/-! ### Evidence hand-over (R147 to R150) -/

/-- The size of the evidence FIFO (R150). -/
def evidenceFifoSize : Nat := 64

/-- A record created: it takes a sequence, and enters the FIFO or is lost (R148, R150). -/
def Evidence.create (e : Evidence) (d : Draft) : Evidence :=
  if e.fifo.length < evidenceFifoSize then
    { e with sequence := e.sequence + 1, lossPending := false,
             fifo := e.fifo ++ [{ draft := d, sequence := e.sequence, lossBefore := e.lossPending }] }
  else { e with sequence := e.sequence + 1, lossPending := true, lost := satAdd max32 e.lost 1 }

/-- A record handed to the Evidence Unit (R147). -/
def State.create (s : State) (d : Draft) : State := { s with evidence := s.evidence.create d }

/-- Records handed over one after another. -/
def State.createAll (s : State) (ds : List Draft) : State := ds.foldl State.create s

/-- Records handed over at one instant, in either order (R149). -/
def State.createAnyOrder (s : State) (ds : List Draft) : State := (s.createAll (s.shuffled ds)).useFree 1

/-- A record of the whole part, stamped with the current air time. -/
def State.createNow (s : State) (o : Option OutletId) (b : EvidenceBody) : State :=
  s.create { outlet := o, stamp := s.time.air, body := b }

/-! ### Requests and responses (R162 to R165) -/

/-- A response formed: its request ceases to be outstanding, and the response joins the tail of the response queue (R165). -/
def LinkPort.respond (p : LinkPort) (tag : Tag) (code : Byte) (status : Status) (body : Body) : LinkPort :=
  { p with outstanding := p.outstanding.erase tag,
           responses := p.responses ++ [{ tag := tag, code := code, status := status, body := body }] }

/-- A response formed on a link. -/
def State.respond (s : State) (l : Link) (tag : Tag) (code : Byte) (status : Status) (body : Body) : State :=
  s.modLink l fun p => p.respond tag code status body

/-- The answer to a request in hand. -/
def State.answer (s : State) (l : Link) (r : Request) (status : Status) (body : Body) : State :=
  s.respond l r.tag r.code status body

/-- The request a link carries out next: the head of its request queue, unless it is held by a fetching one (R164). -/
def State.nextRequest (s : State) (l : Link) : Option Request :=
  if s.powered && (s.link l).held.isNone then (s.link l).requests.head? else none

/-- The state with the head of a link's request queue taken. -/
def State.takeRequest (s : State) (l : Link) : State := s.modLink l fun p => { p with requests := p.requests.tail }

/-- A request of a given code taken from the head of its link's queue and checked in the order of R163: BUSY while loading, RIGHTS
where its link may not make it, and otherwise the owning block's effect. Nothing happens where the head is another request. -/
def serve (l : Link) (code : Byte) (allowed : Bool) (owner : Request → State → State) (s : State) :
    Host.Outcome State Fault Refusal :=
  match s.nextRequest l with
  | none => idle s
  | some r =>
    if r.code ≠ code then idle s
    else if s.loading then done ((s.takeRequest l).answer l r .busy .none)
    else if !allowed then done ((s.takeRequest l).answer l r .rights .none)
    else done (owner r (s.takeRequest l))

/-- A request whose body is read to operands: BAD_ARG where it does not fit (R161, R188). -/
def withArgs {α : Type} (l : Link) (r : Request) (args : Option α) (s : State) (f : α → State) : State :=
  match args with
  | some a => f a
  | none => s.answer l r .badArg .none

end Sys2Proof.Machine
end

