-- ==== Sys2Proof/Machine/Pages.lean ====
section
/-! DEFINITION. The Page Directory and the rings (R113 to R115), the deferred read tables' completions (R167), and the page
requests (R126 to R129, R166). -/

namespace Sys2Proof.Machine

/-! ### Directory and rings -/

/-- The directory's entry of a page; an unlisted page is EMPTY (R114). -/
def pageAt (d : List (Nat × PageEntry)) (p : Nat) : PageEntry :=
  match d.find? fun e => e.1 == p with
  | some e => e.2
  | none => emptyPage

/-- The directory with one entry set; the list stays in page order and lists no EMPTY entry as it is at power-on. -/
def setPage (d : List (Nat × PageEntry)) (p : Nat) (e : PageEntry) : List (Nat × PageEntry) :=
  (d.filter fun x => decide (x.1 < p)) ++ (if e = emptyPage then [] else [(p, e)]) ++ d.filter fun x => decide (p < x.1)

/-- The directory's canonical form: pages strictly rising, none listed that an unlisted page would read as. -/
def directoryWf (d : List (Nat × PageEntry)) : Bool :=
  decide (d.Pairwise fun x y => x.1 < y.1) && d.all fun x => x.2 != emptyPage

/-- The state with one page's entry changed. -/
def State.modPage (s : State) (p : Nat) (f : PageEntry → PageEntry) : State :=
  { s with directory := setPage s.directory p (f (pageAt s.directory p)) }

/-- Does a page belong to an outlet's ring (R113)? An outlet that is not enabled has none. -/
def OutletSettings.owns (st : OutletSettings) (p : Nat) : Bool :=
  st.enabled && decide (st.ringFirst ≤ p) && decide (p < st.ringFirst + st.ringCount)

/-- The listed pages of an outlet's ring. -/
def State.ringPages (s : State) (o : OutletId) : List (Nat × PageEntry) :=
  s.directory.filter fun x => (s.outletSettings o).owns x.1

/-- Is a page entry in this state? -/
def PageEntry.inState (e : PageEntry) (st : PageState) : Bool := e.state == st

/-- How many pages of a ring are in a state. -/
def State.countPages (s : State) (o : OutletId) (st : PageState) : Nat := (s.ringPages o).countP fun x => x.2.inState st

/-- A ring's held pages (R138). -/
def State.heldPages (s : State) (o : OutletId) : Nat := (s.ringPages o).countP fun x => decide (0 < x.2.holdCount)

/-- A ring's budget: half its page count, rounded down (R138). -/
def State.budget (s : State) (o : OutletId) : Nat := (s.outletSettings o).ringCount / 2

/-- The ring's page that holds a sequence (R127, R129). -/
def State.findPage (s : State) (o : OutletId) (q : BitVec 32) : Option (Nat × PageEntry) :=
  (s.ringPages o).find? fun x => x.2.state != .empty && x.2.sequence == some q

/-- The ring's OPEN page (R123). -/
def State.openPage (s : State) (o : OutletId) : Option (Nat × PageEntry) :=
  (s.ringPages o).find? fun x => x.2.inState .opened

/-- The age of a sequence: of two, the one of greater age is the earlier (R115). -/
def State.age (s : State) (q : BitVec 32) : Nat := (s.pageSeq - q).toNat

/-- The age of a page. -/
def State.pageAge (s : State) (x : Nat × PageEntry) : Nat := s.age (x.2.sequence.getD 0)

/-- A page put into a list of pages in sequence order. -/
def State.insertPage (s : State) (x : Nat × PageEntry) : List (Nat × PageEntry) → List (Nat × PageEntry)
  | [] => [x]
  | y :: ys => if s.pageAge y < s.pageAge x then x :: y :: ys else y :: s.insertPage x ys

/-- Pages in sequence order, the oldest first (R115). -/
def State.inSequence (s : State) (xs : List (Nat × PageEntry)) : List (Nat × PageEntry) := xs.foldr s.insertPage []

/-- A ring's pages that hold a sequence, in sequence order. -/
def State.ringInSequence (s : State) (o : OutletId) : List (Nat × PageEntry) :=
  s.inSequence ((s.ringPages o).filter fun x => x.2.state != .empty && x.2.sequence.isSome)

/-- Does a page's span intersect a requested span (R126, R137)? A page with no frame has no span. -/
def PageEntry.intersects (e : PageEntry) (first last : AirTime) : Bool :=
  match e.span with
  | some (a, b) => a.atOrBefore last && first.atOrBefore b
  | none => false

/-! ### Deferred reads (R166, R167) -/

/-- A deferred entry's read that has bytes passes to the fetch queue; one with none is answered SHORT at once (R167). -/
def completeDeferred (l : Link) (page : Nat) (e : PageEntry) (closing : Bool) (s : State) (d : Deferred) : State :=
  if d.offset + d.length ≤ e.fill then
    s.modLink l fun p => { p with fetches := p.fetches ++ [.page d.tag d.outlet d.sequence page d.offset d.length closing] }
  else if d.offset < e.fill then
    s.modLink l fun p => { p with fetches := p.fetches ++ [.page d.tag d.outlet d.sequence page d.offset (e.fill - d.offset) true] }
  else s.respond l d.tag 11 .short (.pageRead [] e.state e.fill)

/-- Does an entry refer to the page a report names, and meet its condition (R167)? -/
def Deferred.completes (d : Deferred) (o : OutletId) (e : PageEntry) (closing : Bool) : Bool :=
  d.outlet == o && e.sequence == some d.sequence && (closing || decide (d.offset + d.length ≤ e.fill))

/-- A report to one link's table: every entry that meets it completes, in either order (R167). -/
def reportTo (l : Link) (o : OutletId) (page : Nat) (e : PageEntry) (closing : Bool) (s : State) : State :=
  let met := (s.link l).deferred.filter fun d => d.completes o e closing
  let left := s.modLink l fun p => { p with deferred := p.deferred.filter fun d => !d.completes o e closing }
  ((s.shuffled met).foldl (completeDeferred l page e closing) left).useFree 1

/-- A fill report or a close reported to both links' deferred read tables (R120, R122, R167). -/
def report (o : OutletId) (page : Nat) (closing : Bool) (s : State) : State :=
  let e := pageAt s.directory page
  reportTo .compliance o page e closing (reportTo .automation o page e closing s)

/-- An entry whose age has reached 50 (R167). -/
def Deferred.timedOut (d : Deferred) : Bool := decide (50 ≤ d.age)

/-- The page's state and fill as a read of a sequence finds them; STALE carries no data. -/
def State.pageFound (s : State) (o : OutletId) (q : BitVec 32) (bytes : Bytes) : Body :=
  match s.findPage o q with
  | some x => .pageRead bytes x.2.state x.2.fill
  | none => .none

/-- The entries of a link's table whose age has reached 50 complete NOT_YET with no data (R167). -/
def timeOutDeferred (l : Link) (s : State) : State :=
  let out := (s.link l).deferred.filter Deferred.timedOut
  let left := s.modLink l fun p => { p with deferred := p.deferred.filter fun d => !d.timedOut }
  ((s.shuffled out).foldl (fun s d => s.respond l d.tag 11 .notYet (s.pageFound d.outlet d.sequence [])) left).useFree 1

/-- Every entry of a link's table ages by one tick (R166). -/
def ageDeferred (l : Link) (s : State) : State :=
  s.modLink l fun p => { p with deferred := p.deferred.map fun d => { d with age := d.age + 1 } }

/-- The frame tick at a Link Port (R16, R166, R167). -/
def tickDeferred (l : Link) (s : State) : State := timeOutDeferred l (ageDeferred l s)

/-- A restart ends every entry of a link's table: ABORTED with no data (R168). -/
def abortDeferred (l : Link) (s : State) : State :=
  let left := s.modLink l fun p => { p with deferred := [] }
  ((s.shuffled (s.link l).deferred).foldl
    (fun s d => s.respond l d.tag 11 .aborted (s.pageFound d.outlet d.sequence [])) left).useFree 1

/-! ### Page requests -/

/-- Is a page state in a PAGE-LIST filter: bits 0 to 2 are OPEN, CLOSED and RELEASED (R126)? -/
def inFilter (filter : Nat) : PageState → Bool
  | .empty => false
  | .opened => filter.testBit 0
  | .closed => filter.testBit 1
  | .released => filter.testBit 2

/-- The entries of a ring that meet the three tests of R126, in sequence order. -/
def State.listed (s : State) (a : PageListArgs) : List (Nat × PageEntry) :=
  (s.ringInSequence a.outlet).filter fun x =>
    inFilter a.filter x.2.state && x.2.intersects a.first a.last && (a.start == 0 || decide (s.pageAge x ≤ s.age a.start))

/-- PAGE-LIST (R126). -/
def listPages (l : Link) (r : Request) (s : State) : State :=
  withArgs l r (readPageList r.body) s fun a =>
    let xs := s.listed a
    s.answer l r .ok (.pageList a.outlet (xs.take 64) ((xs[64]?).bind fun x => x.2.sequence))

/-- A fetching PAGE-READ joins the fetch queue and holds its link (R127, R164). -/
def State.fetchPage (s : State) (l : Link) (r : Request) (a : PageReadArgs) (page length : Nat) (short : Bool) : State :=
  s.modLink l fun p =>
    { p with fetches := p.fetches ++ [.page r.tag a.outlet a.sequence page a.offset length short], held := some r.tag }

/-- A PAGE-READ past the fill of an OPEN page: entered in the deferred read table, or NOT_YET when it holds 4 entries, or ABORTED
while a restart is in progress (R127, R166, R168). -/
def deferRead (l : Link) (r : Request) (a : PageReadArgs) (e : PageEntry) (s : State) : State :=
  if s.restarting.isSome then s.answer l r .aborted (.pageRead [] e.state e.fill)
  else if 4 ≤ (s.link l).deferred.length then s.answer l r .notYet (.pageRead [] e.state e.fill)
  else
    s.modLink l fun p =>
      { p with deferred := p.deferred ++
          [{ tag := r.tag, outlet := a.outlet, sequence := a.sequence, offset := a.offset, length := a.length, age := 0 }] }

/-- PAGE-READ of a page that holds the sequence (R127). -/
def readFound (l : Link) (r : Request) (a : PageReadArgs) (x : Nat × PageEntry) (s : State) : State :=
  if a.offset + a.length ≤ x.2.fill then s.fetchPage l r a x.1 a.length false
  else if x.2.inState .opened then deferRead l r a x.2 s
  else if a.offset < x.2.fill then s.fetchPage l r a x.1 (x.2.fill - a.offset) true
  else s.answer l r .short (.pageRead [] x.2.state x.2.fill)

/-- PAGE-READ (R127). -/
def readPage (l : Link) (r : Request) (s : State) : State :=
  withArgs l r (readPageRead r.body) s fun a =>
    match s.findPage a.outlet a.sequence with
    | none => s.answer l r .stale .none
    | some x => readFound l r a x s

/-- PAGE-RELEASE (R129). -/
def releasePage (l : Link) (r : Request) (s : State) : State :=
  withArgs l r (readPageRelease r.body) s fun a =>
    match s.findPage a.1 a.2 with
    | none => s.answer l r .stale .none
    | some x =>
      match x.2.state with
      | .closed => (s.modPage x.1 fun e => { e with state := .released }).answer l r .ok .none
      | .released => s.answer l r .already .none
      | .opened => s.answer l r .busy .none
      | .empty => s.answer l r .stale .none

/-- PAGE_LIST: PAGE-LIST at the head of a link's request queue is carried out (R126, R163). -/
def execPageList (l : Link) (s : State) : Host.Outcome State Fault Refusal := serve l 10 (l = .compliance) (listPages l) s

/-- PAGE_READ: PAGE-READ at the head of a link's request queue is carried out (R127, R163). -/
def execPageRead (l : Link) (s : State) : Host.Outcome State Fault Refusal := serve l 11 (l = .compliance) (readPage l) s

/-- PAGE_RELEASE: PAGE-RELEASE at the head of a link's request queue is carried out (R129, R163). -/
def execPageRelease (l : Link) (s : State) : Host.Outcome State Fault Refusal :=
  serve l 12 (l = .compliance) (releasePage l) s

/-- DEFERRED_READ_TIMEOUT: the entries of a link's table whose age stands at 50 complete NOT_YET (R167). The tick that brings an
age to 50 completes the entry itself (log entry 10). -/
def execDeferredReadTimeout (l : Link) (s : State) : Host.Outcome State Fault Refusal :=
  when (s.powered && (s.link l).deferred.any Deferred.timedOut) (timeOutDeferred l s) s

end Sys2Proof.Machine
end

