-- ==== Sys2Proof/Machine/EvidenceUnit.lean ====
section
/-! DEFINITION. The evidence ring (R151 to R158): slots, the burst at a grant, reading and acknowledging. -/

namespace Sys2Proof.Machine

/-- The Evidence Unit changed. -/
def State.modEvidence (s : State) (f : Evidence → Evidence) : State := { s with evidence := f s.evidence }

/-! ### Slots (R151) -/

/-- The capacity of the ring in records (R151). -/
def State.capacity (s : State) : Nat := s.settings.regionCount * 1024

/-- The slot of a ring position (R151). -/
def State.slot (s : State) (p : BitVec 32) : Nat := p.toNat % s.capacity

/-- The address of the record at a ring position (R151). -/
def State.slotAddress (s : State) (p : BitVec 32) : Nat := s.settings.regionFirst * pageSize + s.slot p * 128

/-- The bytes of the record at a ring position. -/
def State.recordAt (s : State) (p : BitVec 32) : Bytes := readBytes s.memory (s.slotAddress p) 128

/-- The unacknowledged count (R151). -/
def Evidence.unacknowledged (e : Evidence) : Nat := (e.head - e.tail).toNat

/-- The automation backlog (R151). -/
def Evidence.backlog (e : Evidence) : Nat := (e.head - e.cursor).toNat

/-! ### The burst at a grant (R152, R154) -/

/-- The number of records a burst takes: those in the FIFO, up to 32 and up to the region's last slot (R152). -/
def State.burstSize (s : State) : Nat := min 32 (min s.evidence.fifo.length (s.capacity - s.slot s.evidence.head))

/-- The overwrite of the record at the tail (R154 steps 1, 2 and 4). -/
def Evidence.overwrite (e : Evidence) : Evidence :=
  { e with tail := e.tail + 1, lost := satAdd max32 e.lost 1,
           cursor := if e.cursor = e.tail then e.cursor + 1 else e.cursor,
           skipped := if e.cursor = e.tail then satAdd max32 e.skipped 1 else e.skipped }

/-- Records given positions from `p` on, each settled against the tail; a record that overwrites carries LOSS_BEFORE (R152,
R154). -/
def Evidence.settleBurst (capacity : Nat) : Evidence → BitVec 32 → List EvidenceRecord → Evidence × List EvidenceRecord
  | e, _, [] => (e, [])
  | e, p, r :: rs =>
    if capacity ≤ (p - e.tail).toNat then
      let rest := Evidence.settleBurst capacity e.overwrite (p + 1) rs
      (rest.1, { r with lossBefore := true } :: rest.2)
    else
      let rest := Evidence.settleBurst capacity e (p + 1) rs
      (rest.1, r :: rest.2)

/-- The evidence burst formed at its grant (R152, R154). -/
def State.grantEvidence (s : State) : State :=
  let n := s.burstSize
  let settled := Evidence.settleBurst s.capacity s.evidence s.evidence.head (s.evidence.fifo.take n)
  { s with evidence := { settled.1 with fifo := settled.2 ++ s.evidence.fifo.drop n }, port := some (.evidence n) }

/-- The bytes of the first `n` records of the FIFO. -/
def Evidence.burstBytes (e : Evidence) (n : Nat) : Bytes := (e.fifo.take n).flatMap EvidenceRecord.bytes

/-- An evidence burst written: its bytes, the head, and the FIFO (R153). -/
def State.writeEvidence (s : State) (n : Nat) : State :=
  { s with
    memory := writeBytes s.memory (s.slotAddress s.evidence.head) (s.evidence.burstBytes n)
    evidence := { s.evidence with head := s.evidence.head + BitVec.ofNat 32 n, fifo := s.evidence.fifo.drop n } }

/-! ### EVID-READ (R155 to R157) -/

/-- The fields of every EVID-READ response after its records (R157). -/
def State.evidBody (s : State) (l : Link) (first : Option (BitVec 32)) (records : List Bytes) (skipped : Nat) : Body :=
  .evidRead first records s.evidence.head s.evidence.tail s.evidence.unacknowledged s.evidence.lost
    (match l with | .automation => some (s.evidence.cursor, skipped) | .compliance => none)

/-- The response to an EVID-READ; on the automation link the skipped count it carries is then 0 (R156, R157). -/
def State.answerRead (s : State) (l : Link) (tag : Tag) (status : Status) (first : Option (BitVec 32)) (records : List Bytes) : State :=
  let answered := s.respond l tag 16 status (s.evidBody l first records s.evidence.skipped)
  match l with
  | .automation => answered.modEvidence fun e => { e with skipped := 0 }
  | .compliance => answered

/-- The first position of a read and the number of records there are from it on (R155, R156). -/
def Evidence.readFrom (e : Evidence) (l : Link) (offset : Nat) : BitVec 32 × Nat :=
  match l with
  | .compliance => (e.tail + BitVec.ofNat 32 offset, e.unacknowledged - offset)
  | .automation => (e.cursor, e.backlog)

/-- EVID-READ: the read is fixed; with no record it is answered SHORT at once, and otherwise it is fetched and holds its link (R155,
R156, R164). -/
def readEvidence (l : Link) (r : Request) (s : State) : State :=
  withArgs l r (readEvidRead l r.body) s fun a =>
    if l = .automation ∧ a.1 ≠ 0 then s.answer l r .badArg .none
    else
      let from_ := s.evidence.readFrom l a.1
      let fixed := min a.2 from_.2
      if fixed = 0 then s.answerRead l r.tag .short none []
      else
        s.modLink l fun p => { p with fetches := p.fetches ++ [.evid r.tag from_.1 fixed a.2 false], held := some r.tag }

/-- How many positions of a read now lie before the tail (R157). That a position is before the tail when it lies less than half of
2^32 behind it is the model's reading, since positions wrap (R151; log entry 34). -/
def passedBy (tail first : BitVec 32) : Nat := if (tail - first).toNat < 2147483648 then (tail - first).toNat else 0

/-- The automation cursor just past the last record returned, unless it already stands further on (R156). -/
def Evidence.advanceCursor (e : Evidence) (l : Link) (past : BitVec 32) : Evidence :=
  match l with
  | .automation => if (past - e.tail).toNat ≤ (e.cursor - e.tail).toNat then e else { e with cursor := past }
  | .compliance => e

/-- The completion of an EVID-READ fetch: the records not yet before the tail are returned (R156, R157). -/
def State.finishRead (s : State) (l : Link) (tag : Tag) (first : BitVec 32) (fixed asked : Nat) : State :=
  let gone := min fixed (passedBy s.evidence.tail first)
  let start := first + BitVec.ofNat 32 gone
  let count := fixed - gone
  let records := (List.range count).map fun i => s.recordAt (start + BitVec.ofNat 32 i)
  if count = 0 then s.answerRead l tag .short none []
  else
    (s.modEvidence fun e => e.advanceCursor l (start + BitVec.ofNat 32 count)).answerRead l tag
      (if count = asked then .ok else .short) (some start) records

/-! ### EVID-ACK (R158) -/

/-- The evidence state after an acknowledgement of `n` records (R158). -/
def Evidence.acknowledge (e : Evidence) (n : Nat) : Evidence :=
  let behind := (e.cursor - e.tail).toNat
  if behind < n then
    { e with tail := e.tail + BitVec.ofNat 32 n, cursor := e.tail + BitVec.ofNat 32 n,
             skipped := satAdd max32 e.skipped (n - behind) }
  else { e with tail := e.tail + BitVec.ofNat 32 n }

/-- EVID-ACK (R158). -/
def acknowledgeEvidence (l : Link) (r : Request) (s : State) : State :=
  withArgs l r (readEvidAck r.body) s fun a =>
    if (match a.2 with | some t => t != s.evidence.tail | none => false) then s.answer l r .stale (.evidStale s.evidence.tail)
    else if s.evidence.unacknowledged < a.1 then s.answer l r .badArg .none
    else
      let e := s.evidence.acknowledge a.1
      ({ s with evidence := e }).answer l r .ok (.evidAck e.tail e.unacknowledged e.lost)

/-- EVID_READ: EVID-READ at the head of a link's request queue is carried out (R155, R156, R163). -/
def execEvidRead (l : Link) (s : State) : Host.Outcome State Fault Refusal := serve l 16 true (readEvidence l) s

/-- EVID_ACK: EVID-ACK at the head of a link's request queue is carried out (R158, R163). -/
def execEvidAck (l : Link) (s : State) : Host.Outcome State Fault Refusal :=
  serve l 17 (l = .compliance) (acknowledgeEvidence l) s

end Sys2Proof.Machine
end

