-- ==== Sys2Proof/Machine/Arbiter.lean ====
section
/-! DEFINITION. The Memory Arbiter (R130 to R132): requesters, the two rotations, and the grant of one burst. -/

namespace Sys2Proof.Machine

/-- The eleven requesters in their fixed order (R130). -/
def requesters : List Requester := (allOutlets.map Requester.writer) ++ [.evidence, .reader .compliance, .reader .automation]

/-- A requester's place in the fixed order (R130). -/
def Requester.place : Requester → Fin 11
  | .writer o => ⟨o.val, by omega⟩
  | .evidence => 8
  | .reader .compliance => 9
  | .reader .automation => 10

/-- Is a requester in the HIGH group (R130)? -/
def State.inHigh (s : State) (q : Requester) : Bool := s.settings.high[q.place]

/-- Is a requester requesting (R130)? EV waits until the region is known (R160). -/
def State.requesting (s : State) : Requester → Bool
  | .writer o => (s.outlet o).writer.placed.isSome
  | .evidence => !s.loading && !s.evidence.fifo.isEmpty
  | .reader l => !(s.link l).fetches.isEmpty

/-- The LOW rotation (R131). -/
def State.lowRotation (s : State) : List Requester := requesters.filter fun q => !s.inHigh q

/-- The HIGH rotation; `none` is the LOW position, there while the LOW group is not empty (R131). -/
def State.highRotation (s : State) : List (Option Requester) :=
  ((requesters.filter s.inHigh).map some) ++ if s.lowRotation.isEmpty then [] else [none]

/-- The search of a rotation from a position, in order and wrapping: the first member that satisfies a test, with the position just
past it (R131). -/
def searchRotation {α : Type} (p : α → Bool) (xs : List α) (position : Nat) : Option (α × Nat) :=
  let order := (List.range xs.length).map fun i => (position + i) % xs.length
  (order.findSome? fun i => xs[i]?.bind fun x => if p x then some (x, (i + 1) % xs.length) else none)

/-- Does the search of the HIGH rotation stop at a member (R131)? -/
def State.stopsAt (s : State) : Option Requester → Bool
  | some q => s.requesting q
  | none => s.lowRotation.any s.requesting

/-- The decision of the arbiter: who is granted, and the two positions after it (R131). -/
structure Decision where
  granted : Requester
  highPos : Nat
  lowPos : Nat
  deriving DecidableEq, Repr

/-- The arbiter's decision with the port free, if any requester is requesting (R131). -/
def State.decision (s : State) : Option Decision :=
  match searchRotation s.stopsAt s.highRotation s.highPos with
  | none => none
  | some (some q, pos) => some { granted := q, highPos := pos, lowPos := s.lowPos }
  | some (none, pos) =>
    (searchRotation s.requesting s.lowRotation s.lowPos).map fun low => { granted := low.1, highPos := pos, lowPos := low.2 }

/-- The record at the head of a write FIFO. -/
def headRecord (fifo : List FifoItem) : Option FrameRecord :=
  match fifo with
  | .record r :: _ => some r
  | _ => none

/-- The largest burst (R130). -/
def burstLimit : Nat := 4096

/-- The record in progress of a writer. -/
def Writer.inProgress (w : Writer) : Option (Placed × FrameRecord) :=
  match w.placed, headRecord w.fifo with
  | some p, some r => some (p, r)
  | _, _ => none

/-- The bytes a writer's next burst carries (R122). -/
def burstOf (p : Placed) (r : FrameRecord) : Nat := min burstLimit (r.bytes.length - p.written)

/-- The address a writer's next burst starts at (R112, R119, R122). -/
def Placed.address (p : Placed) : Nat := p.page * pageSize + p.offset + p.written

/-- A grant to a writer: the next part of its record (R122, R130). The one fault of the model is here: a burst that would reach past
the end of record memory. -/
def State.grantWriter (s : State) (o : OutletId) : Host.Outcome State Fault Refusal :=
  match (s.outlet o).writer.inProgress with
  | none => idle s
  | some (p, r) =>
    let n := burstOf p r
    if s.memorySize < p.address + n then .fault .beyondRecordMemory
    else done { s with port := some (.record o n (decide (p.written + n = r.bytes.length))) }

/-- A grant to a link's read: the read at the head of its fetch queue, given up already where a reset of the link met it there
(R130, R167, R173). -/
def State.grantReader (s : State) (l : Link) : State :=
  match (s.link l).fetches with
  | [] => s
  | f :: _ =>
    ({ s with port := some (.read l f (decide (0 < (s.link l).givenUp))) }).modLink l fun p =>
      { p with fetches := p.fetches.tail, givenUp := p.givenUp - 1 }

/-- A grant carried out (R130). -/
def State.grant (s : State) : Requester → Host.Outcome State Fault Refusal
  | .writer o => s.grantWriter o
  | .evidence => done s.grantEvidence
  | .reader l => done (s.grantReader l)

/-- ARBITER_GRANT: with the port free and a requester requesting, one burst is granted (R131). -/
def execArbiterGrant (s : State) : Host.Outcome State Fault Refusal :=
  if s.powered && s.port.isNone then
    match s.decision with
    | none => idle s
    | some d => { s with highPos := d.highPos, lowPos := d.lowPos }.grant d.granted
  else idle s

end Sys2Proof.Machine
end

