-- ==== Sys2Proof/Machine/Holds.lean ====
section
/-! DEFINITION. The Hold Table (chapter 8): placement, release and the three hold requests. -/

namespace Sys2Proof.Machine

/-- The size of the Hold Table (R135). -/
def holdTableSize : Nat := 32

/-- The hold id after an id (R136). -/
def nextHoldId (n : Nat) : Nat := if 65535 ≤ n then 1 else n + 1

/-- The hold id counter advanced past every id that an entry present holds; 33 advances are enough (R136). -/
def advanceId (holds : List Hold) : Nat → Nat → Nat
  | 0, n => n
  | fuel + 1, n => if holds.any (fun h => h.id == nextHoldId n) then advanceId holds fuel (nextHoldId n) else nextHoldId n

/-- The hold id a placement takes (R136). -/
def State.takeHoldId (s : State) : Nat := advanceId s.holds (holdTableSize + 1) s.holdCounter

/-- A list without its leading items that fail a test. -/
def fromFirst {α : Type} (p : α → Bool) (xs : List α) : List α := xs.dropWhile fun x => !p x

/-- The candidate range: every page of the ring from the first to the last that intersects the span (R137). -/
def State.candidates (s : State) (o : OutletId) (first last : AirTime) : List (Nat × PageEntry) :=
  let hits := fun x : Nat × PageEntry => x.2.intersects first last
  (fromFirst hits (fromFirst hits (s.ringInSequence o)).reverse).reverse

/-- The pages a placement would newly hold (R138). -/
def newlyHeld (xs : List (Nat × PageEntry)) : Nat := xs.countP fun x => x.2.holdCount == 0

/-- The range trimmed from its oldest end until the pages held keep within the budget (R138). -/
def trimRange (held budget : Nat) : List (Nat × PageEntry) → List (Nat × PageEntry)
  | [] => []
  | x :: xs => if held + newlyHeld (x :: xs) ≤ budget then x :: xs else trimRange held budget xs

/-- Does a span begin before the first stamp of the ring's oldest page (R139)? -/
def State.beforeOldest (s : State) (o : OutletId) (first : AirTime) : Bool :=
  match ((s.ringInSequence o).find? fun x => x.2.span.isSome).bind fun x => x.2.span with
  | some span => first.before span.1
  | none => false

/-- Pages with their hold counts changed, by page number. -/
def State.modPages (s : State) (pages : List Nat) (f : PageEntry → PageEntry) : State :=
  pages.foldl (fun s p => s.modPage p f) s

/-- The outcome of a placement (R139). -/
inductive Placement where
  | full
  | empty
  | placed (h : Hold)
  deriving DecidableEq, Repr

/-- The entry a placement makes over a final range (R135, R139). -/
def State.holdOver (s : State) (origin : HoldOrigin) (o : OutletId) (first last : AirTime) (range : List (Nat × PageEntry))
    (trimmed : Bool) : Hold :=
  { id := s.takeHoldId, origin := origin, outlet := o, spanFirst := first, spanLast := last,
    firstSeq := ((range.head?.bind fun x => x.2.sequence).getD 0), lastSeq := ((range.getLast?.bind fun x => x.2.sequence).getD 0),
    pages := range.length, trimmed := trimmed, beforeOldest := s.beforeOldest o first, placed := s.time.air }

/-- A placement that is made: hold counts, entry and counter, then HOLD_PLACED (R139, R144). -/
def State.enterHold (s : State) (h : Hold) (range : List (Nat × PageEntry)) : State :=
  let held := s.modPages (range.map (·.1)) fun e => { e with holdCount := e.holdCount + 1 }
  let entered := { held with holds := held.holds ++ [h], holdCounter := h.id }
  entered.createNow (some h.outlet) (.holdPlaced h (entered.heldPages h.outlet) (entered.budget h.outlet))

/-- A placement, decided in the order of R139. -/
def State.place (s : State) (origin : HoldOrigin) (o : OutletId) (first last : AirTime) : State × Placement :=
  if holdTableSize ≤ s.holds.length then (s, .full)
  else
    let candidates := s.candidates o first last
    let range := trimRange (s.heldPages o) (s.budget o) candidates
    if range.isEmpty then (s, .empty)
    else
      let h := s.holdOver origin o first last range (decide (range.length < candidates.length))
      (s.enterHold h range, .placed h)

/-- What the Hold Table answers the Verdict Unit (R145). -/
def Placement.result : Placement → HoldResult
  | .full => .failedFull
  | .empty => .failedEmpty
  | .placed h => if h.trimmed || h.beforeOldest then .partly h.id else .placed h.id

/-- HOLD-PLACE (R141). -/
def placeHold (l : Link) (r : Request) (s : State) : State :=
  withArgs l r (readHoldPlace r.body) s fun a =>
    let p := s.place .manual a.1 a.2.1 a.2.2
    match p.2 with
    | .full => s.answer l r .full .none
    | .empty => s.answer l r .empty .none
    | .placed h => p.1.answer l r .ok (.holdPlace h.id h.firstSeq h.lastSeq h.pages h.trimmed h.beforeOldest)

/-- The pages of a hold's covered range: the ring's pages whose sequence lies from its first to its last (R135). -/
def State.covered (s : State) (h : Hold) : List (Nat × PageEntry) :=
  (s.ringInSequence h.outlet).filter fun x => decide (s.pageAge x ≤ s.age h.firstSeq) && decide (s.age h.lastSeq ≤ s.pageAge x)

/-- A hold released: hold counts, entry, then HOLD_RELEASED with the number of pages that fell to 0 (R142, R144). -/
def State.releaseHold (s : State) (h : Hold) (freed : Nat) : State :=
  let lowered := s.modPages ((s.covered h).map (·.1)) fun e => { e with holdCount := e.holdCount - 1 }
  ({ lowered with holds := lowered.holds.filter fun x => x.id != h.id }).createNow (some h.outlet) (.holdReleased h freed)

/-- HOLD-RELEASE (R142). -/
def releaseHold (l : Link) (r : Request) (s : State) : State :=
  withArgs l r (readHoldRelease r.body) s fun id =>
    match s.holds.find? fun h => h.id == id with
    | none => s.answer l r .unknown .none
    | some h =>
      let freed := (s.covered h).countP fun x => x.2.holdCount == 1
      (s.releaseHold h freed).answer l r .ok (.holdRelease id freed)

/-- The outlets that have a ring in the settings in force (R113). -/
def State.ringOutlets (s : State) : List OutletId := allOutlets.filter fun o => (s.outletSettings o).enabled

/-- HOLD-LIST (R143). -/
def listHolds (l : Link) (r : Request) (s : State) : State :=
  withArgs l r (readNothing r.body) s fun _ =>
    s.answer l r .ok (.holdList s.holds (s.ringOutlets.map fun o => (o, s.heldPages o, s.budget o)))

/-- HOLD_PLACE: HOLD-PLACE at the head of a link's request queue is carried out (R141, R163). -/
def execHoldPlace (l : Link) (s : State) : Host.Outcome State Fault Refusal := serve l 13 (l = .compliance) (placeHold l) s

/-- HOLD_RELEASE: HOLD-RELEASE at the head of a link's request queue is carried out (R142, R163). -/
def execHoldRelease (l : Link) (s : State) : Host.Outcome State Fault Refusal :=
  serve l 14 (l = .compliance) (releaseHold l) s

/-- HOLD_LIST: HOLD-LIST at the head of a link's request queue is carried out (R143, R163). -/
def execHoldList (l : Link) (s : State) : Host.Outcome State Fault Refusal := serve l 15 true (listHolds l) s

end Sys2Proof.Machine
end

