-- ==== Sys2Proof/Machine/Loudness.lean ====
section
/-! DEFINITION. The loudness arithmetic of chapter 4, exact on rationals: weighting, sub-blocks, codes, histograms and true peak. -/

namespace Sys2Proof.Machine

/-! ### Codes (R62, R70)

A code is formed from an exact positive value x as 10·log10(x) plus a constant. In units of 0.0005 that is at least `k` exactly
when x^20000 is at least 10^(k + off), an integer comparison; `off` is 20000 times minus the constant over ten. -/

/-- Does 10·log10(x) − off/2000 reach `k` units of 0.0005, with x^20000 given as a fraction? Exact, for x above 0. -/
def reaches (off : Int) (top bottom : Nat) (k : Int) : Bool :=
  if 0 ≤ k + off then Nat.ble (Nat.mul bottom (Nat.pow 10 (k + off).toNat)) top
  else Nat.ble bottom (Nat.mul top (Nat.pow 10 (-(k + off)).toNat))

/-- The largest integer between `low` and `high` that satisfies a property which holds up to some point, by halving; `low` is
answered when none above it does. -/
def bisect (p : Int → Bool) : Nat → Int → Int → Int
  | 0, low, _ => low
  | n + 1, low, high =>
    if p ((low + high) / 2) then bisect p n ((low + high) / 2) high else bisect p n low ((low + high) / 2)

/-- The units of 0.0005 at or below the value of `x`, looked for from −120.01 to +12.01. -/
def unitsOf (off : Int) (x : Rat) : Int :=
  bisect (reaches off (Nat.pow x.num.toNat 20000) (Nat.pow x.den 20000)) 20 (-240020) 24020

/-- A positive number between two neighbouring multiples of a power of a half, 160 binary digits below its own size; a number
with a shorter denominator is both itself. -/
def bracket (x : Rat) : Rat × Rat :=
  if x.den.log2 < 160 then (x, x)
  else
    let k := 160 + x.den.log2 - x.num.toNat.log2
    let m := x.num.toNat * 2 ^ k / x.den
    (mkRat m (2 ^ k), mkRat (m + 1) (2 ^ k))

/-- The lower code that R62 allows at `k` units: within 0.0005 of a halfway point the code below it. -/
def lowerCode (k : Int) : Int := if k % 20 ≤ 10 then k / 20 else k / 20 + 1

/-- The upper code that R62 allows at `k` units: within 0.0005 of a halfway point the code above it. -/
def upperCode (k : Int) : Int := if k % 20 ≤ 8 then k / 20 else k / 20 + 1

/-- The two codes R62 allows for the value of `x`; they differ only within 0.0005 of a halfway point. -/
def codesOf (off : Int) (x : Rat) : Int × Int := (lowerCode (unitsOf off x), upperCode (unitsOf off x))

/-- The codes allowed for an exact value that lies from `near.1` to `near.2`: where these two settle them, theirs, and otherwise
those of `exact`, which stands for the value itself. -/
def settle (off : Int) (near : Rat × Rat) (exact : Unit → Rat) : Int × Int :=
  if codesOf off near.1 = codesOf off near.2 then codesOf off near.1 else codesOf off (exact ())

/-- The code formed from an exact value, the `n`-th formation: where R62 allows two codes, the free value decides (log entry 3);
then the clamp to −120.00 and `top`. A value of 0 gives −120.00. -/
def formCode (off top : Int) (near : Rat × Rat) (exact : Unit → Rat) (n : Nat) : Int :=
  if near.2 ≤ 0 then silentCode
  else
    let codes := settle off near exact
    max silentCode (min top (if codes.1 = codes.2 then codes.1 else if Config.upperCode n then codes.2 else codes.1))

/-- The loudness code of a power: L(P) = −0.691 + 10·log10(P) (R62). -/
def loudnessCode (p : Rat) (n : Nat) : Int := formCode 1382 1200 (bracket p) (fun _ => p) n

/-- The true-peak code of a peak value: 20·log10(v) = 10·log10(v²) (R70). -/
def peakCode (v : Rat) (n : Nat) : Int := formCode 0 600 (v * v, v * v) (fun _ => v * v) n

/-! ### Weighting (R56 to R59)

Samples stay the 24-bit integers of the frame: the normalised sample is s / 2^23, and every exact number below carries that scale. -/

/-- The samples of one index spread over the six channels; a channel the layout lacks is fed zero (R56). -/
def spread : Layout → List Int → Six Int
  | .mono, [c] => { Six.all 0 with c := c }
  | .stereo, [l, r] => { Six.all 0 with l := l, r := r }
  | .surround, [l, r, c, lfe, ls, rs] => { l := l, r := r, c := c, lfe := lfe, ls := ls, rs := rs }
  | _, _ => Six.all 0

/-- The coefficients of a section, in hundred-millionths (R57). -/
structure Coefficients where
  b0 : Int
  b1 : Int
  b2 : Int
  a1 : Int
  a2 : Int

/-- Section A (R57). -/
def sectionA : Coefficients := { b0 := 153512486, b1 := -269169619, b2 := 119839281, a1 := -169065929, a2 := 73248077 }

/-- Section B (R57). -/
def sectionB : Coefficients := { b0 := 100000000, b1 := -200000000, b2 := 100000000, a1 := -199004745, a2 := 99007225 }

/-- The mantissa a number has with `p` places, at least its own. -/
def Exact.at (x : Exact) (p : Nat) : Int := x.mantissa * 100000000 ^ (p - x.places)

/-- A number by its mantissa and places; zero is always written alike. -/
def Exact.make (mantissa : Int) (places : Nat) : Exact := if mantissa = 0 then .zero else { mantissa := mantissa, places := places }

/-- A sum. -/
def Exact.add (x y : Exact) : Exact := .make (x.at (max x.places y.places) + y.at (max x.places y.places)) (max x.places y.places)

/-- A square. -/
def Exact.square (x : Exact) : Exact := .make (x.mantissa * x.mantissa) (2 * x.places)

/-- The places that hold every number of a section. -/
def Section.places (s : Section) (x : Exact) : Nat :=
  max x.places (max (max s.x1.places s.x2.places) (max s.y1.places s.y2.places))

/-- One sample through one section in direct form I (R57). -/
def Section.output (k : Coefficients) (s : Section) (x : Exact) : Exact :=
  let p := s.places x
  .make (k.b0 * x.at p + k.b1 * s.x1.at p + k.b2 * s.x2.at p - k.a1 * s.y1.at p - k.a2 * s.y2.at p) (p + 1)

/-- The section after input `x` gave output `y` (R58). -/
def Section.shift (s : Section) (x y : Exact) : Section := { x1 := x, x2 := s.x1, y1 := y, y2 := s.y1 }

/-- A sample as the filters take it (R56). -/
def sampleExact (x : Int) : Exact := .make x 0

/-- The weighted sample of a channel, with the filter after it: section A, then section B (R57, R58). -/
def ChannelFilter.run (f : ChannelFilter) (x : Int) : Exact × ChannelFilter :=
  let y := f.a.output sectionA (sampleExact x)
  let z := f.b.output sectionB y
  (z, { a := f.a.shift (sampleExact x) y, b := f.b.shift y z })

/-- One sample index into the filters and the sub-block accumulator (R59). -/
def Loud.gather (e : Loud) (x : Six Int) : Loud :=
  let l := e.filters.l.run x.l
  let r := e.filters.r.run x.r
  let c := e.filters.c.run x.c
  let ls := e.filters.ls.run x.ls
  let rs := e.filters.rs.run x.rs
  { e with
    filters := { l := l.2, r := r.2, c := c.2, ls := ls.2, rs := rs.2 }
    sums :=
      { l := e.sums.l.add l.1.square, r := e.sums.r.add r.1.square, c := e.sums.c.add c.1.square,
        ls := e.sums.ls.add ls.1.square, rs := e.sums.rs.add rs.1.square }
    gathered := e.gathered + 1 }

/-- Sample indices into the accumulator, in time order. -/
def Loud.gatherAll (e : Loud) (xs : List (Six Int)) : Loud := xs.foldl Loud.gather e

/-- The size of a full sub-block (R59). -/
def subBlockSize : Nat := 4800

/-- The weighted sum of the five sums of squares, times 100: weights 1.00 for L, R and C and 1.41 for Ls and Rs (R60). -/
def weightedSum (t : Five Exact) (p : Nat) : Int := 100 * (t.l.at p + t.r.at p + t.c.at p) + 141 * (t.ls.at p + t.rs.at p)

/-- The places that hold every sum of squares. -/
def sumPlaces (t : Five Exact) : Nat :=
  max (max t.l.places t.r.places) (max t.c.places (max t.ls.places t.rs.places))

/-- The power of the samples gathered: the weighted sum of the channels' mean squares (R60). -/
def Loud.power (e : Loud) : Rat :=
  mkRat (weightedSum e.sums (sumPlaces e.sums)) (100 * e.gathered * 2 ^ 46 * 100000000 ^ sumPlaces e.sums)

/-- The accumulator emptied (R59, R61). -/
def Loud.clearGathered (l : Loud) : Loud := { l with gathered := 0, sums := Five.all .zero }

/-! ### Live windows (R63) -/

/-- The last `n` items of a list, or all if fewer. -/
def lastItems {α : Type} (n : Nat) (xs : List α) : List α := xs.drop (xs.length - n)

/-- The mean power of sub-blocks, weighted by sample count (R63). -/
def meanPower (bs : List SubBlock) : Rat :=
  (bs.map fun b => b.power * (b.samples : Rat)).sum / ((bs.map fun b => b.samples).sum : Nat)

/-- A sub-block joins the history and both live values are recomputed: two formations of a code (R63). -/
def Loud.complete (l : Loud) (n : Nat) : Loud :=
  let history := lastItems 30 (l.history ++ [{ power := l.power, samples := l.gathered }])
  { l.clearGathered with
    history := history
    momentary := loudnessCode (meanPower (lastItems 4 history)) n
    shortTerm := loudnessCode (meanPower history) (n + 1) }

/-! ### Loudness records (R64 to R68, R72, R73) -/

/-- An empty loudness record (R72, R73). -/
def emptyLoudRecord : LoudRecord :=
  { bins := List.replicate 820 0, underRange := 0, gatingCount := 0, gatingMax := none, truePeak := silentCode,
    shortTermMax := none, saturated := false }

/-- A segment's record at its announcement (R72). -/
def emptySegLoud : SegLoud := { full := 0, window := [], record := emptyLoudRecord }

/-- The bin of a gating block's loudness (R66). -/
def binOf (l : Int) : Nat := min 819 ((l + 7000) / 10).toNat

/-- The larger of a maximum that may be absent and a value. -/
def raiseMax (m : Option Int) (v : Int) : Option Int := some (match m with | none => v | some w => max w v)

/-- A count incremented, or left at its largest value (R67). -/
def bump (n : Nat) : Nat := satAdd max32 n 1

/-- Would incrementing this count take it past its largest value (R67)? -/
def atLimit (n : Nat) : Bool := decide (max32 ≤ n)

/-- A gating block of loudness `l` entered in a record (R66). -/
def LoudRecord.enter (r : LoudRecord) (l : Int) : LoudRecord :=
  if l < -7000 then
    { r with gatingCount := bump r.gatingCount, underRange := bump r.underRange, gatingMax := raiseMax r.gatingMax l,
             saturated := r.saturated || atLimit r.gatingCount || atLimit r.underRange }
  else
    { r with gatingCount := bump r.gatingCount, bins := r.bins.modify (binOf l) bump, gatingMax := raiseMax r.gatingMax l,
             saturated := r.saturated || atLimit r.gatingCount || atLimit (r.bins.getD (binOf l) 0) }

/-- A true-peak code entered in a record's maximum (R70, R73). -/
def LoudRecord.enterPeak (r : LoudRecord) (c : Int) : LoudRecord := { r with truePeak := max r.truePeak c }

/-- A member's short-term maximum entered in the break's (R73), or a live value in a segment's (R64). -/
def LoudRecord.enterShortTerm (r : LoudRecord) : Option Int → LoudRecord
  | some v => { r with shortTermMax := raiseMax r.shortTermMax v }
  | none => r

/-! ### Integrated loudness (R68)

A bin's power is p(r_i) = 10^((r_i + 0.691)/10) with r_i = −69.95 + 0.10·i, so the loudness of a mean of bin powers is
−69.95 + 10·log10 of the same mean of 10^(i/100). Those numbers are bracketed to `d` decimals: first to forty, and where these do
not settle the code, to `exactDecimals`.

At 500,000 decimals the lower bracket has the codes of the mean itself. A code changes where the mean passes 10^(m/20000) with m
no multiple of 200. With u = 10^(1/20000), the difference of the two, times the count N of blocks, is a polynomial in u with
integer coefficients. It is not 0, since x^20000 − 10 is irreducible and every exponent of the mean is a multiple of 200. So its
norm, a product of 20,000 conjugates, is at least 1; N is below 10^13 and each conjugate below 10^22, so the difference is at least
10^(−440,013), and the bracket is closer than that. -/

/-- The decimals at which a mean of bin powers settles its code. -/
def exactDecimals : Nat := 500000

/-- The largest t with t^100 at most 10^(100·d + j): 10^d times 10^(j/100), rounded down. -/
def hundredthRoot (d j : Nat) : Nat :=
  (bisect (fun t => Nat.ble (Nat.pow t.toNat 100) (Nat.pow 10 (100 * d + j))) (4 * d + 8) (10 ^ d : Nat) (10 ^ (d + 1) : Nat)).toNat

/-- 10^d times 10^(i/100), rounded down. -/
def binPowerLow (d i : Nat) : Nat := 10 ^ (i / 100) * hundredthRoot d (i % 100)

/-- 10^d times 10^(i/100), rounded up. -/
def binPowerHigh (d i : Nat) : Nat := 10 ^ (i / 100) * (hundredthRoot d (i % 100) + if i % 100 = 0 then 0 else 1)

/-- The sum of counts times bin powers, from bin `i` on, over the bins that are kept. -/
def binSum (keep : Nat → Bool) (power : Nat → Nat) : Nat → List Nat → Nat
  | _, [] => 0
  | i, c :: cs => (if c = 0 || !keep i then 0 else c * power i) + binSum keep power (i + 1) cs

/-- The mean of bin powers over the bins kept, the powers given as 10^d times themselves. -/
def binMean (keep : Nat → Bool) (d : Nat) (power : Nat → Nat) (bins : List Nat) : Rat :=
  (binSum keep power 0 bins : Nat) / ((binSum keep (fun _ => 1) 0 bins * 10 ^ d : Nat) : Rat)

/-- The loudness code of the mean bin power over the bins kept. -/
def binCode (keep : Nat → Bool) (bins : List Nat) (n : Nat) : Int :=
  formCode 139900 1200 (binMean keep 40 (binPowerLow 40) bins, binMean keep 40 (binPowerHigh 40) bins)
    (fun _ => binMean keep exactDecimals (binPowerLow exactDecimals) bins) n

/-- The representative value of a bin, in hundredths (R67). -/
def representative (i : Nat) : Int := -6995 + 10 * i

/-- The reduction of a loudness record; it forms two codes, the `n`-th and the next (R68). -/
def LoudRecord.reduce (r : LoudRecord) (n : Nat) : Reduction :=
  if r.bins.sum = 0 then
    if r.gatingCount = 0 then .notEvaluated else .silent
  else
    let gate := binCode (fun _ => true) r.bins n - 1000
    .value (binCode (fun i => decide (gate ≤ representative i)) r.bins (n + 1)) gate

/-! ### True peak (R69, R70) -/

/-- Phase coefficients for x_{n−3} to x_{n+4}, in ten-thousandths (R69). -/
def phase1 : List Int := [-58, 402, -1399, 8902, 2743, -767, 182, -6]

/-- Phase 2 (R69). -/
def phase2 : List Int := [-35, 392, -1463, 6106, 6106, -1463, 392, -35]

/-- Phase 3 (R69). -/
def phase3 : List Int := [-6, 182, -767, 2743, 8902, -1399, 402, -58]

/-- The value of a phase from the last eight samples, newest first, in ten-thousandths of a sample unit. -/
def phaseValue (phase : List Int) (taps : List Int) : Int := (List.zipWith (· * ·) phase taps.reverse).sum

/-- The peak of the group that the newest sample completes, in ten-thousandths of a sample unit: its phase 0 is the sample four
back (R69). -/
def groupPeak (taps : List Int) : Nat :=
  max (max (10000 * taps.getD 4 0).natAbs (phaseValue phase1 taps).natAbs)
    (max (phaseValue phase2 taps).natAbs (phaseValue phase3 taps).natAbs)

/-- A sample joins the last eight. -/
def pushTap (taps : List Int) (x : Int) : List Int := (x :: taps).take 8

/-- The interpolator after one sample index. -/
def Loud.tap (e : Loud) (x : Six Int) : Loud :=
  { e with
    taps :=
      { l := pushTap e.taps.l x.l, r := pushTap e.taps.r x.r, c := pushTap e.taps.c x.c, lfe := pushTap e.taps.lfe x.lfe,
        ls := pushTap e.taps.ls x.ls, rs := pushTap e.taps.rs x.rs }
    incomplete := min 4 (e.incomplete + 1) }

/-- The peak of a sample index: the largest group peak over the six channels (R69). -/
def Loud.indexPeak (e : Loud) : Nat :=
  max (max (max (groupPeak e.taps.l) (groupPeak e.taps.r)) (max (groupPeak e.taps.c) (groupPeak e.taps.lfe)))
    (max (groupPeak e.taps.ls) (groupPeak e.taps.rs))

/-- Sample indices into the interpolator, with the largest peak among the groups they complete (R69). -/
def Loud.tapAll (e : Loud) (xs : List (Six Int)) : Loud × Nat :=
  xs.foldl (fun p x => (p.1.tap x, if 4 ≤ p.1.incomplete then max p.2 (p.1.tap x).indexPeak else p.2)) (e, 0)

/-- A peak as a value: ten-thousandths of a sample unit, a unit being 2^−23 (R56, R69). -/
def peakValue (peak : Nat) : Rat := mkRat peak (10000 * 8388608)

end Sys2Proof.Machine
end

