-- ==== Sys2Proof/Machine/Profiles.lean ====
section
/-! DEFINITION. The profile store (R94 to R98) and the two profile requests. -/

namespace Sys2Proof.Machine

/-- The version marked latest (R94). -/
def ProfileStore.latest (p : ProfileStore) : Option ProfileVersion := if p.latestIsOne then p.slot1 else p.slot0

/-- The content of the target slot (R94). -/
def ProfileStore.target (p : ProfileStore) : Option ProfileVersion := if p.latestIsOne then p.slot0 else p.slot1

/-- The latest version's number. Before loading completes there is none, and no segment begins (R94). -/
def State.latestVersion (s : State) : Nat := (s.profiles.latest.map (·.version)).getD 0

/-- The latest profile. -/
def State.latestProfile (s : State) : Profile := (s.profiles.latest.map (·.profile)).getD builtInProfile

/-- Does a slot hold this version? -/
def holdsVersion (slot : Option ProfileVersion) (v : Nat) : Bool := (slot.map (·.version)) == some v

/-- The profile of a captured version. Every current segment, open break and closing slot refers to a held version (R94). -/
def State.profileOf (s : State) (v : Nat) : Profile :=
  if holdsVersion s.profiles.slot0 v then (s.profiles.slot0.map (·.profile)).getD builtInProfile
  else if holdsVersion s.profiles.slot1 v then (s.profiles.slot1.map (·.profile)).getD builtInProfile
  else builtInProfile

/-- A class of a captured version (R92, R93). -/
def State.classOf (s : State) (v : Nat) (cls : Fin 8) : ClassLimits := (s.profileOf v).classes[cls]

/-- How many times an outlet's current segment, open break and closing slots refer to a version (R95). -/
def Outlet.references (t : Outlet) (v : Nat) : Nat :=
  [t.sched.current.map (·.version), t.sched.brk.map (·.version), t.verdict.segSlot.map (·.cur.version),
    t.verdict.brkSlot.map (·.brk.version)].count (some v)

/-- The reference count of a version (R95). -/
def State.references (s : State) (v : Nat) : Nat := (s.outlets.toList.map fun t => t.references v).sum

/-- The version a newly installed profile takes (R93). -/
def nextVersion (v : Nat) : Nat := if 65535 ≤ v then 1 else v + 1

/-- A profile installed in the target slot as the next version and marked latest (R96). -/
def ProfileStore.install (p : ProfileStore) (v : ProfileVersion) : ProfileStore :=
  if p.latestIsOne then { p with slot0 := some v, latestIsOne := false } else { p with slot1 := some v, latestIsOne := true }

/-- PROFILE-STAGE (R96). -/
def stageProfile (l : Link) (r : Request) (s : State) : State :=
  withArgs l r (readProfileStage r.body) s fun p =>
    if (s.profiles.target.map fun v => s.references v.version).getD 0 > 0 then s.answer l r .busy .none
    else
      let version := nextVersion s.latestVersion
      let discarded := s.profiles.target.map (·.version)
      let installed := { s with profiles := s.profiles.install { version := version, profile := p } }
      (installed.createNow none (.profileApplied version discarded true)).answer l r .ok (.profileStage version discarded)

/-- A slot as PROFILE-READ returns it (R98). -/
def State.slotReading (s : State) (slot : Option ProfileVersion) : Option (ProfileVersion × Nat) :=
  slot.map fun v => (v, s.references v.version)

/-- PROFILE-READ (R98). -/
def readProfiles (l : Link) (r : Request) (s : State) : State :=
  withArgs l r (readNothing r.body) s fun _ =>
    s.answer l r .ok
      (.profileRead (s.slotReading s.profiles.slot0) (s.slotReading s.profiles.slot1) s.profiles.latestIsOne)

/-- PROFILE_STAGE: PROFILE-STAGE at the head of a link's request queue is carried out (R96, R163). -/
def execProfileStage (l : Link) (s : State) : Host.Outcome State Fault Refusal :=
  serve l 8 (l = .compliance) (stageProfile l) s

/-- PROFILE_READ: PROFILE-READ at the head of a link's request queue is carried out (R98, R163). -/
def execProfileRead (l : Link) (s : State) : Host.Outcome State Fault Refusal := serve l 9 true (readProfiles l) s

end Sys2Proof.Machine
end

