-- ==== Sys2Proof/Machine/Verdict.lean ====
section
/-! DEFINITION. The Verdict Unit (R99 to R111): breach lines, excursions, and the verdicts of segments and breaks. -/

namespace Sys2Proof.Machine

/-! ### Parts of an outlet -/

/-- An outlet's Verdict Unit state changed. -/
def State.modVerdict (s : State) (o : OutletId) (f : VerdictUnit → VerdictUnit) : State :=
  s.modOutlet o fun t => { t with verdict := f t.verdict }

/-- An outlet's current segment. -/
def State.current (s : State) (o : OutletId) : Option Current := (s.outlet o).sched.current

/-- The class of a segment in its captured version (R92, R93). -/
def State.limitsOf (s : State) (c : Current) : ClassLimits := s.classOf c.version c.decl.cls

/-! ### Breach lines (R108 to R110) -/

/-- A Verdict Unit whose line follows its two indications (R109). -/
def VerdictUnit.follow (v : VerdictUnit) : VerdictUnit := { v with line := v.gapOpen || v.shortTermOver }

/-- The two indications of an outlet changed: the line follows, and a rise raises BREACH on both links (R109). -/
def State.setBreach (s : State) (o : OutletId) (f : VerdictUnit → VerdictUnit) : State :=
  let v := (f (s.outlet o).verdict).follow
  let moved := s.modVerdict o fun _ => v
  if v.line && !(s.outlet o).verdict.line then moved.raiseBoth .breach else moved

/-- The gap-open indication set or cleared (R109). -/
def State.reportGap (s : State) (o : OutletId) (opened : Bool) : State := s.setBreach o fun v => { v with gapOpen := opened }

/-- Does a live short-term value with a full sub-block count put a segment in breach (R108)? -/
def State.shortTermBreach (s : State) (o : OutletId) (value : Int) (full : Nat) : Bool :=
  match s.current o with
  | none => false
  | some c =>
    match (s.limitsOf c).shortTermMax with
    | none => false
    | some m => decide (30 ≤ full) && decide (m ≤ value)

/-- A report from the Loudness Engine: the short-term condition is evaluated afresh (R108). -/
def State.reportShortTerm (s : State) (o : OutletId) (value : Int) (full : Nat) : State :=
  s.setBreach o fun v => { v with shortTermOver := s.shortTermBreach o value full }

/-- The announcement of a new segment makes the short-term condition false (R108). -/
def State.clearShortTerm (s : State) (o : OutletId) : State := s.setBreach o fun v => { v with shortTermOver := false }

/-! ### Excursions (R106, R107) -/

/-- An excursion counter as a class loads it: OFF for interval 0 (R106). -/
def loadedCounter (interval : Nat) : Option Nat := if interval = 0 then none else some interval

/-- The excursion counter loaded at the announcement of a segment (R106). -/
def State.loadExcursions (s : State) (o : OutletId) (c : Current) : State :=
  s.modVerdict o fun v => { v with counter := loadedCounter (s.limitsOf c).excursionInterval, excursions := 0 }

/-- The excursion counter at 0: an EXCURSION record, the count, and a reload (R107). -/
def State.excursion (s : State) (o : OutletId) (c : Current) (l : Int) (stamp : AirTime) : State :=
  let k := s.limitsOf c
  let written := s.create
    { outlet := some o, stamp := stamp,
      body := .excursion c.decl.id l k.excursionThreshold k.excursionInterval c.decl.cls c.version }
  written.modVerdict o fun v =>
    { v with excursions := satAdd max32 v.excursions 1, counter := loadedCounter k.excursionInterval }

/-- A gating block reported to the excursion counter (R107). -/
def State.countExcursion (s : State) (o : OutletId) (l : Int) (stamp : AirTime) : State :=
  match s.current o, (s.outlet o).verdict.counter with
  | some c, some n =>
    if l < (s.limitsOf c).excursionThreshold then s
    else if n ≤ 1 then s.excursion o c l stamp
    else s.modVerdict o fun v => { v with counter := some (n - 1) }
  | _, _ => s

/-! ### Outcomes (R100 to R103) -/

/-- The loudness outcome of a reduction under a class (R100). -/
def loudOutcome (k : ClassLimits) : Reduction → LoudOutcome
  | .silent => .silent
  | .notEvaluated => .notEvaluated
  | .value code _ =>
    if k.target + k.toleranceAbove < code then .high else if code < k.target - k.toleranceBelow then .low else .pass

/-- The integrated code of a reduction (R68, R100). -/
def Reduction.code : Reduction → Int
  | .value code _ => code
  | .silent => silentCode
  | .notEvaluated => silentCode

/-- The relative gate of a reduction, absent under SILENT and NOT_EVALUATED (R102). -/
def Reduction.gate : Reduction → Option Int
  | .value _ gate => some gate
  | .silent => none
  | .notEvaluated => none

/-- The short-term outcome (R101). -/
def shortTermOutcome (k : ClassLimits) (value : Option Int) : ShortTermOutcome :=
  match k.shortTermMax with
  | none => .none
  | some m =>
    match value with
    | none => .notEvaluated
    | some v => if m < v then .over else .pass

/-- A loudness record judged under a class with its reduction and final true-peak maximum (R100 to R103). -/
def judge (k : ClassLimits) (r : LoudRecord) (reduction : Reduction) (peak : Int) : Judgement :=
  { loudness := loudOutcome k reduction, integrated := reduction.code, gate := reduction.gate, gatingCount := r.gatingCount,
    underRange := r.underRange, gatingMax := r.gatingMax, shortTerm := shortTermOutcome k r.shortTermMax,
    shortTermMax := r.shortTermMax, classShortTermMax := k.shortTermMax, peakOver := decide (k.peakMax < peak),
    finalPeak := peak, classPeakMax := k.peakMax, target := k.target, toleranceBelow := k.toleranceBelow,
    toleranceAbove := k.toleranceAbove }

/-- Do the loudness, short-term and peak outcomes fail (R102, R103)? -/
def Judgement.fails (j : Judgement) : Bool :=
  j.loudness == .high || j.loudness == .low || j.shortTerm == .over || j.peakOver

/-- The subtitle outcome (R90). -/
def subOutcome (obligation : Obligation) (r : SubRecord) : SubOutcome :=
  if obligation = .exempt then .exempt
  else if 0 < r.gapCount then .gap
  else if 0 < r.wrongLanguage then .wrongLanguage
  else .pass

/-- Coverage in permille (R81). -/
def SubRecord.coverage (r : SubRecord) : Nat := 1000 * r.covered / r.framesSeen

/-! ### Verdicts (R102 to R105) -/

/-- The automatic hold of a verdict, requested where it failed and its class holds on fail (R104). -/
def State.autoHold (s : State) (wanted : Bool) (origin : HoldOrigin) (o : OutletId) (a b : AirTime) : State × HoldResult :=
  if wanted then
    let p := s.place origin o (a.earlier b) (a.later b)
    (p.1, p.2.result)
  else (s, .none)

/-- A verdict record handed over, and VERDICT raised on both links (R105 steps 3 and 4). -/
def State.deliver (s : State) (o : OutletId) (stamp : AirTime) (body : EvidenceBody) : State :=
  (s.create { outlet := some o, stamp := stamp, body := body }).raiseBoth .verdict

/-- The verdict of a closed segment formed and delivered (R100 to R105). -/
def State.judgeSegment (s : State) (o : OutletId) (c : ClosedSegment) (peak : Int) : State :=
  let k := s.limitsOf c.cur
  let judgement := judge k c.loud.record (c.loud.record.reduce s.free) peak
  let subtitle := subOutcome c.cur.decl.obligation c.subs
  let failed := judgement.fails || subtitle == .gap
  let held := (s.useFree 2).autoHold (failed && k.holdOnFail) (.autoSegment c.cur.decl.id) o c.cur.startStamp c.cur.lastStamp
  let verdict : Verdict :=
    { cur := c.cur, cause := c.cause, saturated := c.loud.record.saturated, excursions := c.excursions, judgement := judgement,
      full := c.loud.full, subtitle := subtitle, coverage := c.subs.coverage, subs := c.subs, failed := failed, hold := held.2 }
  (held.1.deliver o c.stamp (.verdict verdict)).modVerdict o fun v => { v with segSlot := none }

/-- The verdict of a closed break formed and delivered (R103 to R105). -/
def State.judgeBreak (s : State) (o : OutletId) (c : ClosedBreak) : State :=
  let k := s.classOf c.brk.version c.brk.cls
  let judgement := judge k c.loud (c.loud.reduce s.free) c.loud.truePeak
  let held := (s.useFree 2).autoHold (judgement.fails && k.holdOnFail) (.autoBreak c.brk.openingId) o c.brk.openStamp
    c.brk.lastStamp
  let verdict : BreakVerdict :=
    { brk := c.brk, cause := c.cause, saturated := c.loud.saturated, judgement := judgement, failed := judgement.fails,
      hold := held.2 }
  (held.1.deliver o c.stamp (.breakVerdict verdict)).modVerdict o fun v => { v with brkSlot := none }

/-- One of an outlet's two closing slots (R99). -/
inductive SlotRef where
  | segment (o : OutletId)
  | brk (o : OutletId)
  deriving DecidableEq, Repr

/-- The closing slots of an outlet that are occupied and have their final true-peak maximum (R99). -/
def State.readySlots (s : State) (o : OutletId) : List SlotRef :=
  (if ((s.outlet o).verdict.segSlot.bind fun c => c.finalPeak).isSome then [.segment o] else []) ++
    if ((s.outlet o).verdict.brkSlot.map fun c => c.finalPeak).getD false then [.brk o] else []

/-- The verdict of one closing slot formed, when the slot is ready (R105). -/
def State.formVerdict (s : State) : SlotRef → State
  | .segment o =>
    match (s.outlet o).verdict.segSlot with
    | some c =>
      match c.finalPeak with
      | some peak => s.judgeSegment o c peak
      | none => s
    | none => s
  | .brk o =>
    match (s.outlet o).verdict.brkSlot with
    | some c => if c.finalPeak then s.judgeBreak o c else s
    | none => s

/-- The verdicts of the ready closing slots of some outlets formed, in either order (R105). That each slot's hold and record are
taken in one piece, so that the holds and the records of two slots come in the same order, is the model's choice (log entry 4). -/
def State.formVerdicts (s : State) (os : List OutletId) : State :=
  (s.shuffled (os.flatMap s.readySlots)).foldl State.formVerdict (s.useFree 1)

/-- EXCURSION: an excursion counter that stands at 0 writes its record and reloads (R107). The gating block that brings a counter
to 0 writes the record itself (log entry 10). -/
def execExcursion (o : OutletId) (l : Int) (stamp : AirTime) (s : State) : Host.Outcome State Fault Refusal :=
  match s.current o with
  | none => idle s
  | some c => when (s.powered && (s.outlet o).verdict.counter == some 0) (s.excursion o c l stamp) s

end Sys2Proof.Machine
end

