-- ==== Sys2Proof/Machine/Engine.lean ====
section
/-! DEFINITION. The Loudness Engine at work on an outlet: sub-blocks, gating blocks, true peak and the final maximum (R59 to R73). -/

namespace Sys2Proof.Machine

/-- An outlet's Loudness Engine state changed. -/
def State.modLoud (s : State) (o : OutletId) (f : Loud → Loud) : State := s.modOutlet o fun t => { t with loud := f t.loud }

/-- A segment loudness record's figures changed. -/
def SegLoud.modRecord (g : SegLoud) (f : LoudRecord → LoudRecord) : SegLoud := { g with record := f g.record }

/-- A gating block entered in the segment's record and the open break's, then reported to the excursion counter (R66). -/
def State.gatingBlock (s : State) (o : OutletId) (l : Int) (stamp : AirTime) : State :=
  (s.modLoud o fun e =>
    { e with seg := e.seg.map fun g => g.modRecord fun r => r.enter l, brk := e.brk.map fun r => r.enter l }).countExcursion o l stamp

/-- A sub-block completes: it joins the history and the live values are formed anew (R63). -/
def State.completeSubBlock (s : State) (o : OutletId) : State := (s.modLoud o fun e => e.complete s.free).useFree 2

/-- A segment record that has counted a full sub-block of power `p` with the live short-term value `v` (R59, R64, R65). -/
def SegLoud.count (g : SegLoud) (p : Rat) (v : Int) : SegLoud :=
  { full := bump g.full, window := lastItems 4 (g.window ++ [p]),
    record := if 30 ≤ bump g.full then g.record.enterShortTerm (some v) else g.record }

/-- The plain mean of the gating window (R65). -/
def SegLoud.gatingPower (g : SegLoud) : Rat := g.window.sum / 4

/-- A full sub-block completes (R71). -/
def State.fullSubBlock (s : State) (o : OutletId) (stamp : AirTime) : State :=
  let p := (s.outlet o).loud.power
  let joined := s.completeSubBlock o
  let v := (joined.outlet o).loud.shortTerm
  match (joined.outlet o).loud.seg with
  | none => joined
  | some g =>
    let counted := g.count p v
    let told := (joined.modLoud o fun e => { e with seg := some counted }).reportShortTerm o v counted.full
    if counted.full < 4 then told
    else (told.useFree 1).gatingBlock o (loudnessCode counted.gatingPower told.free) stamp

/-- The short sub-block at a boundary: it joins the history, is not counted in F, and reports a count of 0 (R61, R71). -/
def State.shortSubBlock (s : State) (o : OutletId) : State :=
  if (s.outlet o).loud.gathered = 0 then s
  else
    let joined := s.completeSubBlock o
    joined.reportShortTerm o (joined.outlet o).loud.shortTerm 0

/-- A frame's sample indices into the sub-block accumulator; at most one full sub-block completes, perhaps inside the frame (R59). -/
def State.gatherFrame (s : State) (o : OutletId) (stamp : AirTime) (xs : List (Six Int)) : State :=
  let room := subBlockSize - (s.outlet o).loud.gathered
  let first := s.modLoud o fun e => e.gatherAll (xs.take room)
  if xs.length < room then first
  else (first.fullSubBlock o stamp).modLoud o fun e => e.gatherAll (xs.drop room)

/-- Sample indices into the interpolator; the code of the largest group they complete is handed on (R69, R70). -/
def State.tapSamples (s : State) (o : OutletId) (xs : List (Six Int)) : State × Int :=
  let r := (s.outlet o).loud.tapAll xs
  ((s.modLoud o fun _ => r.1).useFree 1, peakCode (peakValue r.2) s.free)

/-- A true-peak code entered in the current segment's maximum (R70). -/
def State.enterPeak (s : State) (o : OutletId) (code : Int) : State :=
  s.modLoud o fun e => { e with seg := e.seg.map fun g => g.modRecord fun r => r.enterPeak code }

/-- The closed break of a slot after its last member's final true-peak maximum (R73). -/
def ClosedBreak.enterFinal (b : ClosedBreak) (code : Int) : ClosedBreak :=
  { b with loud := b.loud.enterPeak code, finalPeak := true }

/-- An outlet after the final true-peak maximum of its closed segment: it reaches the slot, and where the segment was a member it
is entered in the break, closed at the same boundary or still open (R70, R73, R99). -/
def Outlet.enterFinal (t : Outlet) (c : ClosedSegment) (code : Int) : Outlet :=
  let final := max c.loud.record.truePeak code
  let sent := { t.verdict with segSlot := some { c with finalPeak := some final } }
  if !c.member then { t with verdict := sent }
  else
    match t.verdict.brkSlot with
    | some b => { t with verdict := { sent with brkSlot := some (b.enterFinal final) } }
    | none => { t with verdict := sent, loud := { t.loud with brk := t.loud.brk.map fun r => r.enterPeak final } }

/-- The final true-peak maximum sent for a closed segment whose last groups have completed with a code (R70). -/
def State.sendFinal (s : State) (o : OutletId) (code : Int) : State :=
  match (s.outlet o).verdict.segSlot with
  | none => s
  | some c => if c.finalPeak.isSome then s else s.modOutlet o fun t => t.enterFinal c code

/-- Is a closed segment still awaiting its final true-peak maximum (R99)? -/
def State.awaitsFinal (s : State) (o : OutletId) : Bool :=
  match (s.outlet o).verdict.segSlot with
  | some c => c.finalPeak.isNone
  | none => false

/-- The Loudness Engine's work on a frame: at a boundary its first four indices complete the closed segment's last groups, the
verdicts are formed, and the rest belongs to the new segment (R70, R99). -/
def State.measure (s : State) (o : OutletId) (stamp : AirTime) (xs : List (Six Int)) : State :=
  let finished :=
    if s.awaitsFinal o then
      let tapped := s.tapSamples o (xs.take 4)
      (tapped.1.sendFinal o tapped.2).formVerdicts [o]
    else s
  let tapped := finished.tapSamples o (if s.awaitsFinal o then xs.drop 4 else xs)
  (tapped.1.enterPeak o tapped.2).gatherFrame o stamp xs

/-- The last four groups completed as though four zero samples followed, and the final maximum sent (R70, R99). -/
def State.finishPeaks (s : State) (o : OutletId) : State :=
  if s.awaitsFinal o then
    let tapped := s.tapSamples o (List.replicate 4 (Six.all 0))
    tapped.1.sendFinal o tapped.2
  else s

end Sys2Proof.Machine
end

