-- ==== Sys2Proof/Machine/Subtitles.lean ====
section
/-! DEFINITION. The Subtitle Checker (chapter 5): units, display state, gap timer and gaps. -/

namespace Sys2Proof.Machine

/-- An outlet's Subtitle Checker state changed. -/
def State.modSubs (s : State) (o : OutletId) (f : Subs → Subs) : State := s.modOutlet o fun t => { t with subs := f t.subs }

/-- A segment subtitle record changed, if there is one. -/
def Subs.modRecord (b : Subs) (f : SubRecord → SubRecord) : Subs := { b with record := b.record.map f }

/-- The gap limit of an obligation under a profile; absent under EXEMPT (R82). -/
def gapLimit (p : Profile) : Obligation → Option Nat
  | .required => some p.gapRequired
  | .liveRelaxed => some p.gapRelaxed
  | .exempt => none

/-- A gap timer loaded with a limit, or stopped (R82, R83). -/
def loadedTimer : Option Nat → GapTimer
  | some g => .running g
  | none => .stopped

/-- A subtitle record at an announcement (R89). -/
def emptySubRecord : SubRecord := { framesSeen := 0, covered := 0, wrongLanguage := 0, gapCount := 0, longestGap := 0 }

/-- The announcement of a new segment: a new record, and the gap timer loaded by its obligation (R82, R89). -/
def State.loadSubs (s : State) (o : OutletId) (c : Current) : State :=
  let limit := gapLimit (s.profileOf c.version) c.decl.obligation
  s.modSubs o fun b => { b with timer := loadedTimer limit, limit := limit, record := some emptySubRecord }

/-- A gap opens: its record, the gap count, and the report to the Verdict Unit (R85). -/
def State.openGap (s : State) (o : OutletId) (start : AirTime) (rfn : Option Rfn) : State :=
  (s.modSubs o fun b =>
    { b.modRecord fun r => { r with gapCount := satAdd max32 r.gapCount 1 } with
      timer := .expired, gap := some { start := start, rfn := rfn, length := 1 } }).reportGap o true

/-- The SUBTITLE_GAP record of a gap (R87). -/
def gapDraft (o : OutletId) (c : Current) (limit : Option Nat) (g : OpenGap) (cause : GapCause) (stop : AirTime) : Draft :=
  { outlet := some o, stamp := stop,
    body := .subtitleGap c.decl.id c.decl.obligation (limit.getD 0) g.start g.rfn stop g.length cause }

/-- An open gap closes: the longest gap, SUBTITLE_GAP, the report, and the record discarded (R87). -/
def State.closeGap (s : State) (o : OutletId) (cause : GapCause) (stop : AirTime) : State :=
  match (s.outlet o).subs.gap, s.current o with
  | some g, some c =>
    let noted := s.modSubs o fun b => b.modRecord fun r => { r with longestGap := max r.longestGap g.length }
    ((noted.create (gapDraft o c (s.outlet o).subs.limit g cause stop)).reportGap o false).modSubs o fun b => { b with gap := none }
  | _, _ => s

/-- A running gap timer decremented for a frame or LOST tick; at 0 a gap opens (R84, R85). -/
def State.runTimer (s : State) (o : OutletId) (start : AirTime) (rfn : Option Rfn) : State :=
  match (s.outlet o).subs.timer with
  | .running n => if n ≤ 1 then s.openGap o start rfn else s.modSubs o fun b => { b with timer := .running (n - 1) }
  | .stopped => s
  | .expired => s

/-- A frame or LOST tick at the gap timer: an open gap lengthens, and otherwise the timer runs (R84 to R86). -/
def State.passGap (s : State) (o : OutletId) (start : AirTime) (rfn : Option Rfn) : State :=
  match (s.outlet o).subs.gap with
  | some g => s.modSubs o fun b => { b with gap := some { g with length := satAdd max32 g.length 1 } }
  | none => s.runTimer o start rfn

/-- The kinds of a unit, by code (R183). -/
inductive UnitKind where
  | show
  | clear
  | hold
  deriving DecidableEq, Repr

/-- A unit's kind; any other code is undefined (R7, R77). -/
def unitKind (u : SubUnit) : Option UnitKind :=
  match u.kind.toNat with
  | 1 => some .show
  | 2 => some .clear
  | 3 => some .hold
  | _ => none

/-- The display state after a valid unit (R80). -/
def display (showing : Bool) : UnitKind → Bool
  | .show => true
  | .clear => false
  | .hold => showing

/-- A gap timer reloaded by a valid unit, unless it is stopped (R83). -/
def reloaded (timer : GapTimer) (limit : Option Nat) : GapTimer :=
  match timer with
  | .stopped => .stopped
  | .running _ => loadedTimer limit
  | .expired => loadedTimer limit

/-- A valid unit: display state, an open gap closed, and the timer reloaded (R79 step 2). -/
def State.validUnit (s : State) (o : OutletId) (stamp : AirTime) (k : UnitKind) : State :=
  (s.closeGap o .unit stamp).modSubs o fun b =>
    { b with showing := display b.showing k, timer := reloaded b.timer b.limit }

/-- One unit of a frame, classed by R77 and R78. -/
def State.takeSubUnit (o : OutletId) (c : Current) (stamp : AirTime) (s : State) (u : SubUnit) : State :=
  match unitKind u with
  | none => s
  | some k =>
    if u.service.toNat ≠ (s.outletSettings o).subtitleService then s
    else if c.decl.language = none ∨ c.decl.language = some u.language then s.validUnit o stamp k
    else s.modSubs o fun b => b.modRecord fun r => { r with wrongLanguage := satAdd max32 r.wrongLanguage 1 }

/-- The work of the Subtitle Checker on one frame (R79). -/
def State.checkSubtitles (s : State) (o : OutletId) (stamp : AirTime) (rfn : Rfn) (units : List SubUnit) : State :=
  match s.current o with
  | none => s
  | some c =>
    let counted := s.modSubs o fun b => b.modRecord fun r => { r with framesSeen := satAdd max24 r.framesSeen 1 }
    let taken := units.foldl (State.takeSubUnit o c stamp) counted
    let covered := taken.modSubs o fun b =>
      if b.showing then b.modRecord fun r => { r with covered := satAdd max24 r.covered 1 } else b
    covered.passGap o stamp (some rfn)

/-- GAP_OPEN: a running gap timer that stands at 0 opens its gap (R85). An ACTIVE outlet's gap takes its latest frame's stamp and
return frame number, a LOST one's the air time. The decrement that brings a timer to 0 opens the gap itself (log entry 10). -/
def execGapOpen (o : OutletId) (s : State) : Host.Outcome State Fault Refusal :=
  let t := s.outlet o
  let opened :=
    match t.intake.state, t.intake.lastArrival with
    | .active, some a => s.openGap o a.1 (some a.2)
    | _, _ => s.openGap o s.time.air none
  when (s.powered && t.subs.timer == .running 0) opened s

end Sys2Proof.Machine
end

