-- ==== Sys2Proof/Machine/Scheduler.lean ====
section
/-! DEFINITION. The Segment Scheduler (chapter 3): triggers, boundaries, breaks, overrun, and the segment requests. -/

namespace Sys2Proof.Machine

/-- An outlet's Scheduler state changed. -/
def State.modSched (s : State) (o : OutletId) (f : Sched → Sched) : State := s.modOutlet o fun t => { t with sched := f t.sched }

/-- The head of an outlet's queue. -/
def State.head (s : State) (o : OutletId) : Option Declaration := (s.outlet o).sched.queue.head?

/-! ### Triggers (R39 to R42) -/

/-- The head armed: the slot filled, the head removed from the queue, the waiting trigger cleared (R39). -/
def Sched.arm (c : Sched) (d : Declaration) (boundary : BoundaryStamp) (cause : ArmCause) (air : AirTime) (late : Bool) : Sched :=
  { c with armed := some { decl := d, boundary := boundary, cause := cause, armStamp := air, lateStart := late },
           queue := c.queue.tail, waiting := none }

/-- The head of an outlet armed now. -/
def State.armHead (s : State) (o : OutletId) (d : Declaration) (boundary : BoundaryStamp) (cause : ArmCause) (late : Bool) : State :=
  s.modSched o fun c => c.arm d boundary cause s.time.air late

/-- A trigger that found the armed slot occupied (R39). -/
def State.setWaiting (s : State) (o : OutletId) (w : Waiting) : State := s.modSched o fun c => { c with waiting := some w }

/-- The LATE_START record of a head armed strictly past its start time (R40). -/
def lateDraft (o : OutletId) (d : Declaration) (start air : AirTime) (cause : LateCause) : Draft :=
  { outlet := some o, stamp := air, body := .lateStart d.id start (air.frames - start.frames) cause }

/-- A due TIMED head armed with the slot empty; strictly past its start time it is late, and its record is to be written (R40). -/
def State.armTimed (s : State) (o : OutletId) (d : Declaration) (start : AirTime) (cause : LateCause) : State × List Draft :=
  let late := start.before s.time.air
  (s.armHead o d (.stamp (s.delayed o start)) .timed late, if late then [lateDraft o d start s.time.air cause] else [])

/-- The test of a TIMED head at a tick or a step: armed with the slot empty, and otherwise a waiting trigger (R39, R40). -/
def State.testTimed (s : State) (o : OutletId) (cause : LateCause) : State × List Draft :=
  match s.head o with
  | none => (s, [])
  | some d =>
    match d.start with
    | some (.timed start) =>
      if !start.atOrBefore s.time.air then (s, [])
      else if (s.outlet o).sched.armed.isSome then (s.setWaiting o .timed, [])
      else s.armTimed o d start cause
    | _ => (s, [])

/-- Has the current segment reached its expected duration (R42)? -/
def State.followDue (s : State) (o : OutletId) : Bool :=
  match s.current o with
  | some c => c.decl.duration != 0 && decide (c.decl.duration ≤ c.frameCount)
  | none => false

/-- A FOLLOW head armed: its slot holds NEXT_FRAME (R42). -/
def State.armFollow (s : State) (o : OutletId) (d : Declaration) : State := s.armHead o d .nextFrame .follow false

/-- The test of a FOLLOW head after a frame is counted (R42). -/
def State.testFollow (s : State) (o : OutletId) : State :=
  match s.head o with
  | none => s
  | some d =>
    if d.start = some .follow ∧ s.followDue o then
      if (s.outlet o).sched.armed.isSome then s.setWaiting o .follow else s.armFollow o d
    else s

/-- The evaluation of a head with the armed slot empty; a LATE_START it brings is written at once (R39, R40, R42). -/
def State.evaluate (s : State) (o : OutletId) (cause : LateCause) : State :=
  match s.head o with
  | none => s
  | some d =>
    if (s.outlet o).sched.armed.isSome then s
    else
      match d.start with
      | some (.timed start) =>
        if start.atOrBefore s.time.air then
          let p := s.armTimed o d start cause
          p.1.createAll p.2
        else s
      | some .follow => if s.followDue o then s.armFollow o d else s
      | _ => s

/-- The armed slot has emptied: QUEUE_EMPTY where the queue is empty, and otherwise the head evaluated; the waiting trigger is
then cleared. A TIMED head whose trigger waited is late with cause SLOT_BUSY (R40, R46). -/
def State.slotEmptied (s : State) (o : OutletId) : State :=
  let waited := (s.outlet o).sched.waiting == some .timed
  let next :=
    if (s.outlet o).sched.queue.isEmpty then s.raiseBoth .queueEmpty
    else s.evaluate o (if waited then .slotBusy else .lateDeclare)
  next.modSched o fun c => { c with waiting := none }

/-- An accepted cue edge at one outlet: its head is armed where it waits on the line with the slot empty (R41). -/
def State.cueTrigger (s : State) (o : OutletId) (k : CueLine) (stamp : AirTime) : State :=
  match s.head o with
  | none => s
  | some d =>
    if d.start = some (.cued k) ∧ (s.outlet o).sched.armed.isNone then
      s.armHead o d (.stamp (s.delayed o stamp)) (.cue k) false
    else s

/-- How many outlets an edge on a line triggers (R41). -/
def State.cueTargets (s : State) (k : CueLine) : Nat :=
  allOutlets.countP fun o => ((s.head o).map fun d => d.start) == some (some (.cued k)) && (s.outlet o).sched.armed.isNone

/-! ### Closing and opening (R44, R45, R48, R51 to R53) -/

/-- The current segment closes: the gap, the loudness and subtitle results, and the closing slot (R45, R54, R72, R73, R89, R99).
With cause NEXT the short sub-block comes first (R61). -/
def State.closeSegment (s : State) (o : OutletId) (close : CloseCause) (gap : GapCause) (stamp : AirTime) : State :=
  match s.current o with
  | none => s
  | some c =>
    let ended := (if close = .next then s.shortSubBlock o else s).closeGap o gap stamp
    let t := ended.outlet o
    let loud := t.loud.seg.getD emptySegLoud
    let closed : ClosedSegment :=
      { cur := c, cause := close, stamp := stamp, loud := loud, subs := t.subs.record.getD emptySubRecord,
        excursions := t.verdict.excursions, member := t.sched.brk.isSome, finalPeak := none }
    ended.modOutlet o fun t =>
      { t with
        sched := { t.sched with current := none }
        loud := { t.loud with seg := none, brk := t.loud.brk.map fun r => r.enterShortTerm loud.record.shortTermMax }
        subs := { t.subs with record := none }
        verdict := { t.verdict with segSlot := some closed, excursions := 0 } }

/-- An open break closes into its closing slot (R53, R73). -/
def State.closeBreak (s : State) (o : OutletId) (cause : CloseCause) (stamp : AirTime) : State :=
  match (s.outlet o).sched.brk with
  | none => s
  | some b =>
    let closed : ClosedBreak :=
      { brk := b, cause := cause, stamp := stamp, loud := (s.outlet o).loud.brk.getD emptyLoudRecord, finalPeak := false }
    s.modOutlet o fun t =>
      { t with
        sched := { t.sched with brk := none }
        loud := { t.loud with brk := none }
        verdict := { t.verdict with brkSlot := some closed } }

/-- The UNDECLARED segment; its class and obligation come from the latest profile when it becomes current (R48). -/
def State.undeclared (s : State) : Declaration :=
  { id := 0, kind := .undeclared, cls := s.latestProfile.defaultClass, obligation := s.latestProfile.defaultObligation,
    language := none, start := none, duration := 0 }

/-- The record of a segment that becomes current (R33, R44). -/
def State.newCurrent (s : State) (d : Declaration) (late : Bool) (stamp : AirTime) (rfn : Rfn) : Current :=
  { decl := if d.kind = .undeclared then s.undeclared else d, startStamp := stamp, startRfn := rfn, frameCount := 0,
    version := s.latestVersion, lateStart := late, holdoverSeen := false, timeStepSeen := false, overrun := false,
    absentFrames := 0, lostTicks := 0, overrunReported := false, lastStamp := stamp, lastRfn := rfn }

/-- A segment becomes current and is announced to the neighbours (R44, R72, R82, R106, R108). -/
def State.announce (s : State) (o : OutletId) (d : Declaration) (late : Bool) (stamp : AirTime) (rfn : Rfn) : State :=
  let c := s.newCurrent d late stamp rfn
  let entered := (s.modSched o fun q => { q with current := some c }).modLoud o fun e =>
    { e.clearGathered with seg := some emptySegLoud }
  ((entered.loadSubs o c).loadExcursions o c).clearShortTerm o

/-- Does a kind open a break (R51)? -/
def opensBreak (k : SegKind) : Bool := k == .commercial || k == .promo

/-- The break record a segment opens (R51). -/
def State.openBreak (s : State) (c : Current) : BreakRecord :=
  { openingId := c.decl.id, openStamp := c.startStamp, firstRfn := c.startRfn, version := s.latestVersion,
    cls := s.latestProfile.breakClass, members := 1, lastMember := c.decl.id, lastStamp := c.startStamp, lastRfn := c.startRfn }

/-- The break opened, continued or closed as the new current segment's kind requires (R51 to R53). -/
def State.stepBreak (s : State) (o : OutletId) (stamp : AirTime) : State :=
  match s.current o with
  | none => s
  | some c =>
    match (s.outlet o).sched.brk with
    | none =>
      if opensBreak c.decl.kind then
        (s.modSched o fun q => { q with brk := some (s.openBreak c) }).modLoud o fun e => { e with brk := some emptyLoudRecord }
      else s
    | some b =>
      if opensBreak c.decl.kind || c.decl.kind == .junction then
        s.modSched o fun q => { q with brk := some { b with members := min 65535 (b.members + 1), lastMember := c.decl.id } }
      else s.closeBreak o .next stamp

/-! ### Frames (R33, R43, R47, R49) -/

/-- What an arriving frame is to the Scheduler: its stamp and number, whether it carries HOLDOVER or TIME_UNSET, and whether it
carries AUDIO_ABSENT or CORRUPT. -/
structure Arrival where
  stamp : AirTime
  rfn : Rfn
  untimed : Bool
  absent : Bool
  deriving DecidableEq, Repr

/-- A frame counted into a segment record (R33). -/
def Current.count (c : Current) (a : Arrival) : Current :=
  { c with frameCount := satAdd max24 c.frameCount 1, holdoverSeen := c.holdoverSeen || a.untimed,
           absentFrames := if a.absent then satAdd max24 c.absentFrames 1 else c.absentFrames,
           lastStamp := a.stamp, lastRfn := a.rfn }

/-- A frame counted into the current segment, and into the open break it is a member of (R33, R51). -/
def State.countFrame (s : State) (o : OutletId) (a : Arrival) : State :=
  s.modSched o fun q =>
    { q with current := q.current.map fun c => c.count a,
             brk := q.brk.map fun b => { b with lastStamp := a.stamp, lastRfn := a.rfn } }

/-- Overrun tested after a frame is counted (R49). -/
def State.testOverrun (s : State) (o : OutletId) (stamp : AirTime) : State :=
  match s.current o with
  | none => s
  | some c =>
    let grace := (s.profileOf c.version).overrunGrace
    if c.decl.duration ≠ 0 ∧ c.decl.duration + grace ≤ c.frameCount ∧ (s.outlet o).sched.armed.isNone ∧ !c.overrunReported then
      (s.modSched o fun q => { q with current := some { c with overrun := true, overrunReported := true } }).create
        { outlet := some o, stamp := stamp,
          body := .overrun c.decl.id c.decl.duration grace c.frameCount ((s.head o).map fun d => d.id) }
    else s

/-- Is a boundary stamp met by a frame's stamp (R43, R47)? -/
def BoundaryStamp.met (b : BoundaryStamp) (stamp : AirTime) : Bool :=
  match b with
  | .nextFrame => true
  | .stamp t => t.atOrBefore stamp

/-- The armed segment that a frame makes current, if any (R43, R47). -/
def State.dueAt (s : State) (o : OutletId) (stamp : AirTime) : Option Armed :=
  (s.outlet o).sched.armed.filter fun a => a.boundary.met stamp

/-- The armed segment becomes current at its first frame: steps 2 to 5 of a boundary (R43, R47). -/
def State.enterSegment (s : State) (o : OutletId) (m : Armed) (a : Arrival) : State :=
  let emptied := s.modSched o fun q => { q with armed := none }
  let current := (emptied.announce o m.decl m.lateStart a.stamp a.rfn).stepBreak o a.stamp
  (current.countFrame o a).slotEmptied o

/-- The Scheduler takes a frame: first frame, boundary, or a frame of the current segment; then overrun is tested (R33, R43, R47,
R49). -/
def State.schedule (s : State) (o : OutletId) (first : Bool) (a : Arrival) : State :=
  let settled :=
    match s.dueAt o a.stamp with
    | some m => (if first then s else s.closeSegment o .next .segmentEnd a.stamp).enterSegment o m a
    | none =>
      let current := if first then (s.announce o s.undeclared false a.stamp a.rfn).stepBreak o a.stamp else s
      (current.countFrame o a).testFollow o
  settled.testOverrun o a.stamp

/-- A step of air time at one outlet (R50). -/
def State.stepOutlet (s : State) (o : OutletId) : State × List Draft :=
  (s.modSched o fun q => { q with current := q.current.map fun c => { c with timeStepSeen := true } }).testTimed o .step

/-- An effect on every outlet that leaves records to write. -/
def State.eachDraft (s : State) (f : State → OutletId → State × List Draft) : State × List Draft :=
  allOutlets.foldl (fun p o => ((f p.1 o).1, p.2 ++ (f p.1 o).2)) (s, [])

/-- A step of air time at the Scheduler: every outlet, and the LATE_START records in either order (R50). -/
def State.stepScheduler (s : State) : State :=
  let p := s.eachDraft State.stepOutlet
  p.1.createAnyOrder p.2

/-! ### Segment requests (R34 to R38) -/

/-- The ids an outlet's pending, armed and current segments hold (R32). -/
def Sched.ids (q : Sched) : List (BitVec 32) :=
  (q.queue.map fun d => d.id) ++ (q.armed.map fun a => a.decl.id).toList ++ (q.current.map fun c => c.decl.id).toList

/-- The size of a pending queue (R32). -/
def queueSize : Nat := 16

/-- Where a declared segment stands after its declaration (R34). -/
def Sched.standing (q : Sched) (id : BitVec 32) : Standing :=
  match q.armed with
  | some a => if a.decl.id = id then .armed a.boundary else .pending q.queue.length q.queue.length
  | none => .pending q.queue.length q.queue.length

/-- SEG-DECLARE (R34). -/
def declareSegment (l : Link) (r : Request) (s : State) : State :=
  withArgs l r (readSegDeclare r.body) s fun a =>
    let q := (s.outlet a.1).sched
    if a.2.id ∈ q.ids then s.answer l r .duplicate .none
    else if queueSize ≤ q.queue.length then s.answer l r .full .none
    else
      let appended := s.modSched a.1 fun q => { q with queue := q.queue ++ [a.2] }
      let settled := if q.queue.isEmpty then appended.evaluate a.1 .lateDeclare else appended
      settled.answer l r .ok (.segDeclare a.2.id ((settled.outlet a.1).sched.standing a.2.id))

/-- A pending segment removed; removing the head clears its waiting trigger and makes the next segment head, which is evaluated
(R35). -/
def State.withdraw (s : State) (o : OutletId) (i : Nat) : State :=
  let removed := s.modSched o fun q => { q with queue := q.queue.eraseIdx i, waiting := if i = 0 then none else q.waiting }
  if i = 0 then removed.evaluate o .lateDeclare else removed

/-- SEG-WITHDRAW (R35). -/
def withdrawSegment (l : Link) (r : Request) (s : State) : State :=
  withArgs l r (readSegWithdraw r.body) s fun a =>
    let q := (s.outlet a.1).sched
    match q.queue.findIdx? fun d => d.id == a.2 with
    | some i => (s.withdraw a.1 i).answer l r .ok (.segWithdraw (i + 1) (q.queue.length - 1))
    | none => if a.2 ∈ q.ids then s.answer l r .armed .none else s.answer l r .unknown .none

/-- SEG-TAKE (R36). -/
def takeSegment (l : Link) (r : Request) (s : State) : State :=
  withArgs l r (readOutlet r.body) s fun o =>
    if (s.outlet o).sched.armed.isSome then s.answer l r .armed .none
    else
      match s.head o with
      | none => s.answer l r .empty .none
      | some d =>
        let t := s.delayed o s.time.air
        (s.armHead o d (.stamp t) .take false).answer l r .ok (.segTake d.id t)

/-- The armed slot that SEG-END fills (R37). -/
def State.endArmed (s : State) (t : AirTime) : Armed :=
  { decl := s.undeclared, boundary := .stamp t, cause := .ending, armStamp := s.time.air, lateStart := false }

/-- SEG-END: the queue is not consulted and not changed (R37). -/
def endSegment (l : Link) (r : Request) (s : State) : State :=
  withArgs l r (readOutlet r.body) s fun o =>
    if (s.outlet o).sched.armed.isSome then s.answer l r .armed .none
    else
      let t := s.delayed o s.time.air
      (s.modSched o fun q => { q with armed := some (s.endArmed t) }).answer l r .ok (.segEnd t)

/-- SEG-LIST (R38). -/
def listSegments (l : Link) (r : Request) (s : State) : State :=
  withArgs l r (readOutlet r.body) s fun o =>
    s.answer l r .ok (.segList (s.outlet o).intake.state (s.outlet o).sched)

/-- SEG_DECLARE: SEG-DECLARE at the head of a link's request queue is carried out (R34, R163). -/
def execSegDeclare (l : Link) (s : State) : Host.Outcome State Fault Refusal :=
  serve l 1 (l = .automation) (declareSegment l) s

/-- SEG_WITHDRAW: SEG-WITHDRAW at the head of a link's request queue is carried out (R35, R163). -/
def execSegWithdraw (l : Link) (s : State) : Host.Outcome State Fault Refusal :=
  serve l 2 (l = .automation) (withdrawSegment l) s

/-- SEG_TAKE: SEG-TAKE at the head of a link's request queue is carried out (R36, R163). -/
def execSegTake (l : Link) (s : State) : Host.Outcome State Fault Refusal := serve l 3 (l = .automation) (takeSegment l) s

/-- SEG_END: SEG-END at the head of a link's request queue is carried out (R37, R163). -/
def execSegEnd (l : Link) (s : State) : Host.Outcome State Fault Refusal := serve l 4 (l = .automation) (endSegment l) s

/-- SEG_LIST: SEG-LIST at the head of a link's request queue is carried out (R38, R163). -/
def execSegList (l : Link) (s : State) : Host.Outcome State Fault Refusal := serve l 5 true (listSegments l) s

end Sys2Proof.Machine
end

