-- ==== Sys2Proof/Machine/Writer.lean ====
section
/-! DEFINITION. The Record Writers (R116 to R125, R133): write FIFO, page advance, suspension, resumption and close marks. -/

namespace Sys2Proof.Machine

/-- An outlet's Record Writer state changed. -/
def State.modWriter (s : State) (o : OutletId) (f : Writer → Writer) : State :=
  s.modOutlet o fun t => { t with writer := f t.writer }

/-! ### Drop runs (R118, R124) -/

/-- A drop run after one more frame (R118). -/
def joinRun (run : Option DropRun) (stamp : AirTime) (rfn : Rfn) : DropRun :=
  match run with
  | some d => { d with count := satAdd max32 d.count 1, lastStamp := stamp, lastRfn := rfn }
  | none => { count := 1, firstStamp := stamp, firstRfn := rfn, lastStamp := stamp, lastRfn := rfn }

/-- An evidence record of a writer, with RECORD raised on both links. -/
def State.reportRecord (s : State) (o : OutletId) (stamp : AirTime) (body : EvidenceBody) : State :=
  (s.create { outlet := some o, stamp := stamp, body := body }).raiseBoth .record

/-- A FIFO drop run, if there is one, reported and made absent (R118). -/
def State.reportDrops (s : State) (o : OutletId) (stamp : AirTime) : State :=
  match (s.outlet o).writer.dropRun with
  | some run => (s.reportRecord o stamp (.frameDrop run)).modWriter o fun w => { w with dropRun := none }
  | none => s

/-! ### The write FIFO (R117) -/

/-- The size of a write FIFO (R117). -/
def fifoSize : Nat := 262144

/-- The bytes an item occupies; a close mark takes none (R117, R133). -/
def FifoItem.size : FifoItem → Nat
  | .record r => r.bytes.length
  | .closeMark => 0

/-- The occupancy of a write FIFO (R117). -/
def occupancy (fifo : List FifoItem) : Nat := (fifo.map FifoItem.size).sum

/-- A record reaches an IDLE or WRITING writer: it enters the FIFO, or joins the FIFO drop run (R117, R118). -/
def State.enterFifo (s : State) (o : OutletId) (r : FrameRecord) : State :=
  if occupancy (s.outlet o).writer.fifo + r.bytes.length ≤ fifoSize then
    (s.reportDrops o r.stamp).modWriter o fun w => { w with fifo := w.fifo ++ [.record r] }
  else s.modWriter o fun w => { w with dropRun := some (joinRun w.dropRun r.stamp r.rfn) }

/-- Is a page's state such that choice 1 of a page advance may take it (R120)? -/
def PageEntry.reusable (e : PageEntry) : Bool := e.inState .empty || e.inState .released && e.holdCount == 0

/-- Is a page CLOSED and unheld (R120)? -/
def PageEntry.discardable (e : PageEntry) : Bool := e.inState .closed && e.holdCount == 0

/-- The first page at ring offsets `i`, `i + 1`, … that choice 1 may take, over `n` pages (R120). -/
def State.searchRing (s : State) (first count : Nat) : Nat → Nat → Option Nat
  | 0, _ => none
  | n + 1, i =>
    if (pageAt s.directory (first + i % count)).reusable then some (first + i % count) else s.searchRing first count n (i + 1)

/-- Choice 1 of a page advance: after the write position, round the ring, ending with the write position itself (R120). -/
def State.choiceOne (s : State) (o : OutletId) : Option Nat :=
  let st := s.outletSettings o
  if !st.enabled then none
  else
    match (s.outlet o).writer.writePos with
    | some p => s.searchRing st.ringFirst st.ringCount st.ringCount (p + 1 - st.ringFirst)
    | none => s.searchRing st.ringFirst st.ringCount st.ringCount 0

/-- Choice 2 of a page advance: under OVERWRITE the unheld CLOSED page of the smallest sequence (R120). -/
def State.choiceTwo (s : State) (o : OutletId) : Option (Nat × PageEntry) :=
  if (s.outletSettings o).policy = .overwrite then (s.ringInSequence o).find? fun x => x.2.discardable else none

/-- Is there an eligible page (R125)? -/
def State.eligible (s : State) (o : OutletId) : Bool := (s.choiceOne o).isSome || (s.choiceTwo o).isSome

/-- A SUSPENDED writer resumes at a frame: RECORD_RESUME, then IDLE (R125). -/
def State.resume (s : State) (o : OutletId) (r : FrameRecord) : State :=
  let written :=
    match (s.outlet o).writer.suspendRun with
    | some run => s.reportRecord o r.stamp (.recordResume run)
    | none => s
  written.modWriter o fun w => { w with suspendRun := none, mode := .idle }

/-- A frame record reaches its writer (R117, R124, R125). -/
def State.record (s : State) (o : OutletId) (r : FrameRecord) : State :=
  if (s.outlet o).writer.mode = .suspended then
    if s.eligible o then (s.resume o r).enterFifo o r
    else s.modWriter o fun w => { w with suspendRun := some (joinRun w.suspendRun r.stamp r.rfn) }
  else s.enterFifo o r

/-! ### Page advance (R120, R121, R124) -/

/-- The page sequence after a sequence (R115). -/
def nextSequence (q : BitVec 32) : BitVec 32 := if q = 4294967295#32 then 1 else q + 1

/-- The OPEN page of a ring closes, and its close is reported to both deferred read tables (R120, R133). -/
def State.closePage (s : State) (o : OutletId) : State :=
  match s.openPage o with
  | some x => report o x.1 true (s.modPage x.1 fun e => { e with state := .closed })
  | none => s

/-- A page opened as the write position with the record in hand at offset 0 (R120, R121). -/
def State.openFor (s : State) (o : OutletId) (p : Nat) : State :=
  let q := nextSequence s.pageSeq
  (({ s with pageSeq := q }).modPage p fun e =>
    { e with state := .opened, sequence := some q, span := none, rfns := none, fill := 0, frameCount := 0, flags := 0 }).modWriter o
    fun w => { w with mode := .writing, writePos := some p, placed := some { page := p, offset := 0, written := 0 } }

/-- The suspension drop run over the records discarded; close marks go without effect (R124, R133). -/
def dropItems (fifo : List FifoItem) : Option DropRun :=
  fifo.foldl (fun run i => match i with | .record r => some (joinRun run r.stamp r.rfn) | .closeMark => run) none

/-- The counts of a ring's pages by state and of its held pages, as RECORD_SUSPEND carries them (R124). -/
def State.suspendBody (s : State) (o : OutletId) (rfn : Rfn) : EvidenceBody :=
  let opened := s.countPages o .opened
  let closed := s.countPages o .closed
  let released := s.countPages o .released
  .recordSuspend rfn (s.outletSettings o).policy ((s.outletSettings o).ringCount - (opened + closed + released)) opened closed
    released (s.heldPages o)

/-- The writer becomes SUSPENDED: its FIFO is discarded into the suspension drop run (R124). -/
def State.suspend (s : State) (o : OutletId) (r : FrameRecord) : State :=
  let dropped := (s.reportDrops o r.stamp).modWriter o fun w =>
    { w with mode := .suspended, suspendRun := dropItems w.fifo, fifo := [], placed := none }
  dropped.reportRecord o r.stamp (dropped.suspendBody o r.rfn)

/-- A page advance for the record in hand (R120). -/
def State.pageAdvance (s : State) (o : OutletId) (r : FrameRecord) : State :=
  let closed := s.closePage o
  match closed.choiceOne o with
  | some p => closed.openFor o p
  | none =>
    match closed.choiceTwo o with
    | some x => (closed.reportRecord o r.stamp (.pageLost x.1 x.2)).openFor o x.1
    | none => closed.suspend o r

/-- The oldest record placed: in the OPEN page at its fill where it fits, and otherwise by a page advance (R119). -/
def State.placeRecord (s : State) (o : OutletId) (r : FrameRecord) : State :=
  match s.openPage o with
  | some x =>
    if (s.outlet o).writer.mode = .writing ∧ x.2.fill + r.bytes.length ≤ pageSize then
      s.modWriter o fun w => { w with placed := some { page := x.1, offset := x.2.fill, written := 0 } }
    else s.pageAdvance o r
  | none => s.pageAdvance o r

/-- A close mark reached: the OPEN page closes, and the writer becomes IDLE (R133). -/
def State.reachMark (s : State) (o : OutletId) : State :=
  (s.closePage o).modWriter o fun w => { w with mode := .idle, fifo := w.fifo.tail }

/-- The item a writer takes next: it has no record in progress and is not SUSPENDED (R119). -/
def State.nextItem (s : State) (o : OutletId) : Option FifoItem :=
  let w := (s.outlet o).writer
  if s.powered && w.placed.isNone && w.mode != .suspended then w.fifo.head? else none

/-- RECORD_TAKE: a writer with no record in progress takes the oldest item of its FIFO (R119, R133). -/
def execRecordTake (o : OutletId) (s : State) : Host.Outcome State Fault Refusal :=
  match s.nextItem o with
  | none => idle s
  | some (.record r) => done (s.placeRecord o r)
  | some .closeMark => done (s.reachMark o)

end Sys2Proof.Machine
end

