-- ==== Sys2Proof/Machine/Intake.lean ====
section
/-! DEFINITION. Return Intake (chapter 1): the treatment of an arriving frame, the hand-off, and the outlet states under frame ticks. -/

namespace Sys2Proof.Machine

/-- An outlet's Return Intake state changed. -/
def State.modIntake (s : State) (o : OutletId) (f : Intake → Intake) : State :=
  s.modOutlet o fun t => { t with intake := f t.intake }

/-! ### Treatment (R3 to R9) -/

/-- A frame after its treatment, with the flags that do not depend on the port's state. -/
structure Treated where
  corrupt : Bool
  outlet : Byte
  sequence : BitVec 16
  layout : Layout
  samples : List (List Int)
  units : List SubUnit
  proxy : Bytes
  mismatch : Bool
  absent : Bool
  short : Bool
  long : Bool
  unitsDropped : Bool
  proxyTruncated : Bool
  deriving DecidableEq, Repr

/-- The samples of every channel in a frame (R56). -/
def frameSamples : Nat := 1920

/-- The proxy bytes kept of a frame (R8). -/
def proxyKept : Nat := 16384

/-- A sample index of zeros. -/
def silence (layout : Layout) : List Int := List.replicate (channelsOf layout) 0

/-- Audio brought to 1920 samples per channel: padded with zeros or cut (R6). -/
def normalised (layout : Layout) (samples : List (List Int)) : List (List Int) :=
  samples.take frameSamples ++ List.replicate (frameSamples - samples.length) (silence layout)

/-- A kept unit: a SHOW of empty text becomes HOLD (R7). -/
def keptUnit (u : SubUnit) : SubUnit := if unitKind u = some .show ∧ u.text = [] then { u with kind := 3 } else u

/-- A frame that is not well formed: header only, audio absent, no units, no proxy (R3). -/
def corruptFrame (o : OutletId) : Treated :=
  { corrupt := true, outlet := BitVec.ofNat 8 o.val, sequence := 0, layout := .none, samples := [], units := [], proxy := [],
    mismatch := false, absent := false, short := false, long := false, unitsDropped := false, proxyTruncated := false }

/-- A well-formed frame treated (R4, R6 to R8). -/
def trustedFrame (o : OutletId) (f : AirFrame) : Treated :=
  let absent := decide (f.layout = .none ∨ f.sampleCount = 0)
  let layout := if absent then .none else f.layout
  { corrupt := false, outlet := f.outlet, sequence := f.sequence, layout := layout,
    samples := if absent then [] else normalised layout f.samples,
    units := (f.units.take 4).map keptUnit, proxy := f.proxy.take proxyKept,
    mismatch := decide (f.outlet.toNat ≠ o.val), absent := absent,
    short := !absent && decide (f.sampleCount < frameSamples), long := !absent && decide (frameSamples < f.sampleCount),
    unitsDropped := decide (4 < f.units.length), proxyTruncated := decide (proxyKept < f.proxy.length) }

/-- The delimited bytes of an arrival treated (R2, R3). -/
def treat (o : OutletId) (bytes : Bytes) : Treated :=
  match readFrame bytes with
  | some f => trustedFrame o f
  | none => corruptFrame o

/-- Is the frame's return sequence other than the expected one (R5)? A CORRUPT frame is not checked (R3). -/
def Treated.discontinuous (f : Treated) (expected : Option (BitVec 16)) : Bool :=
  !f.corrupt && (match expected with | some e => e != f.sequence | none => false)

/-- The expected sequence after an arrival (R5). -/
def Treated.nextExpected (f : Treated) (expected : Option (BitVec 16)) : Option (BitVec 16) :=
  if f.corrupt then expected.map fun e => e + 1 else some (f.sequence + 1)

/-- The frame flags, in the bit order of R183, with the time flag of the reference state (R9). -/
def Treated.flags (f : Treated) (expected : Option (BitVec 16)) (ref : RefState) : BitVec 16 :=
  BitVec.ofNat 16
    (bitsOf [f.corrupt, f.mismatch, f.discontinuous expected, f.absent, f.short, f.long, f.unitsDropped, f.proxyTruncated,
      ref == .holdover, ref == .unset])

/-- The audio as the Loudness Engine takes it: 1920 indices of six channels (R56). -/
def Treated.audio (f : Treated) : List (Six Int) :=
  if f.layout = .none then List.replicate frameSamples (Six.all 0) else f.samples.map (spread f.layout)

/-! ### Hand-off (R14) -/

/-- The work of the three consumers on a frame of one outlet. -/
structure HandOff where
  outlet : OutletId
  frame : Treated
  arrival : Arrival
  flags : BitVec 16

/-- The three consumers (R14). -/
inductive Consumer where
  | loudness
  | subtitles
  | writer
  deriving DecidableEq, Repr

/-- The frame record's content for the Record Writer (R14). -/
def State.recordContent (s : State) (h : HandOff) : RecordContent :=
  { outlet := h.frame.outlet, sequence := h.frame.sequence, rfn := h.arrival.rfn, stamp := h.arrival.stamp,
    segment := ((s.current h.outlet).map fun c => c.decl.id).getD 0, flags := h.flags, layout := h.frame.layout,
    samples := h.frame.samples, units := h.frame.units, proxy := h.frame.proxy }

/-- One consumer's work. -/
def HandOff.consume (h : HandOff) (s : State) : Consumer → State
  | .loudness => s.measure h.outlet h.arrival.stamp h.frame.audio
  | .subtitles => s.checkSubtitles h.outlet h.arrival.stamp h.arrival.rfn h.frame.units
  | .writer =>
    s.record h.outlet
      { bytes := (s.recordContent h).bytes, stamp := h.arrival.stamp, rfn := h.arrival.rfn, flags := h.flags }

/-- The orders in which the three consumers may work (R14; log entry 4). -/
def consumerOrders : List (List Consumer) :=
  [[.loudness, .subtitles, .writer], [.loudness, .writer, .subtitles], [.subtitles, .loudness, .writer],
    [.subtitles, .writer, .loudness], [.writer, .loudness, .subtitles], [.writer, .subtitles, .loudness]]

/-- The order the `n`-th choice gives. -/
def consumerOrder (n : Nat) : List Consumer := consumerOrders.getD (Config.consumerOrder n % 6) [.loudness, .subtitles, .writer]

/-- An arrival on an outlet that is not OFF: numbered, its loss timer reset, and its outlet ACTIVE (R5, R10 to R13). -/
def Intake.arrive (i : Intake) (f : Treated) (stamp : AirTime) : Intake :=
  { i with state := .active, rfn := i.rfn + 1, expected := f.nextExpected i.expected, lossTimer := 0,
           lastArrival := some (stamp, i.rfn) }

/-- The RETURN_RESTORED record of an arrival that restores a LOST outlet (R13). -/
def restoredDrafts (o : OutletId) (i : Intake) (stamp : AirTime) : List Draft :=
  if i.state = .lost then [{ outlet := some o, stamp := stamp, body := .returnRestored i.rfn i.lostTicks }] else []

/-- What an arrival hands on (R14). -/
def State.handOff (s : State) (o : OutletId) (f : Treated) : HandOff :=
  let i := (s.outlet o).intake
  let flags := f.flags i.expected s.time.ref
  { outlet := o, frame := f, flags := flags,
    arrival := { stamp := s.time.air, rfn := i.rfn, untimed := s.time.ref == .holdover || s.time.ref == .unset,
                 absent := f.absent || f.corrupt } }

/-- A frame taken: the intake state, RETURN_RESTORED, then the Scheduler (R9 to R14). That RETURN_RESTORED comes before the records
other blocks make of the same frame, and the Scheduler's before those of the three consumers, is the model's choice among the orders
R149 allows (log entry 4). -/
def State.takeFrame (s : State) (o : OutletId) (f : Treated) : State :=
  let i := (s.outlet o).intake
  let taken := (s.modIntake o fun i => i.arrive f s.time.air).createAll (restoredDrafts o i s.time.air)
  taken.schedule o (i.state == .waiting) (s.handOff o f).arrival

/-- A frame taken and handed to the three consumers in a given order (R14). -/
def State.arrive (s : State) (o : OutletId) (f : Treated) (order : List Consumer) : State :=
  order.foldl (s.handOff o f).consume (s.takeFrame o f)

/-- AIR_FRAME_ARRIVAL: a delimited frame on an air return port; on an outlet that is OFF it is discarded (R1, R14). -/
def execAirFrameArrival (o : OutletId) (bytes : Bytes) (s : State) : Host.Outcome State Fault Refusal :=
  when (s.powered && (s.outlet o).intake.state != .off)
    ((s.useFree 1).arrive o (treat o bytes) (consumerOrder s.free)) s

/-- AIR_BYTES_UNDELIMITED: bytes that make no frame are discarded and are not an arrival (R1). -/
def execAirBytesUndelimited (_o : OutletId) (_bytes : Bytes) (s : State) : Host.Outcome State Fault Refusal := idle s

/-! ### Frame ticks (R12, R13, R16) -/

/-- The RETURN_LOST record (R12). -/
def State.lostDraft (s : State) (o : OutletId) : Draft :=
  let i := (s.outlet o).intake
  { outlet := some o, stamp := s.time.air,
    body := .returnLost (i.lastArrival.map fun a => a.1) (i.lastArrival.map fun a => a.2)
      (((s.current o).map fun c => c.decl.id).getD 0) }

/-- An outlet goes from ACTIVE to LOST (R12). -/
def State.enterLost (s : State) (o : OutletId) : State :=
  s.modIntake o fun i => { i with state := .lost, expected := none, lostTicks := 0 }

/-- A tick on a LOST outlet: the LOST ticks of the port and of the segment, and the gap timer (R13). -/
def State.lostTick (s : State) (o : OutletId) : State :=
  let counted := (s.modIntake o fun i => { i with lostTicks := satAdd max32 i.lostTicks 1 }).modSched o fun q =>
    { q with current := q.current.map fun c => { c with lostTicks := satAdd max32 c.lostTicks 1 } }
  counted.passGap o s.time.air none

/-- A frame tick at Return Intake for one outlet (R12, R13). -/
def State.tickIntake (s : State) (o : OutletId) : State × List Draft :=
  match (s.outlet o).intake.state with
  | .off => (s, [])
  | .waiting => (s, [])
  | .lost => (s.lostTick o, [])
  | .active =>
    let timed := s.modIntake o fun i => { i with lossTimer := i.lossTimer + 1 }
    if 2 ≤ (s.outlet o).intake.lossTimer then (timed.enterLost o, [timed.lostDraft o]) else (timed, [])

/-- RETURN_LOST: an ACTIVE outlet whose loss timer stands at 3 goes to LOST (R12). The tick that brings a timer to 3 does so itself
(log entry 10). -/
def execReturnLost (o : OutletId) (s : State) : Host.Outcome State Fault Refusal :=
  let i := (s.outlet o).intake
  when (s.powered && i.state == .active && decide (3 ≤ i.lossTimer)) ((s.enterLost o).create (s.lostDraft o)) s

end Sys2Proof.Machine
end

