-- ==== Sys2Proof/Machine/Settings.lean ====
section
/-! DEFINITION. The Settings Loader (R175 to R179): validity of an image, loading, saving, and power. -/

namespace Sys2Proof.Machine

/-! ### Validity (R176) -/

/-- The pages of a range that is in use: its first page and its count. -/
abbrev PageRange := Nat × Nat

/-- The rings of the enabled outlets (R113, R175). -/
def Image.rings (g : Image) : List PageRange :=
  (g.outlets.toList.filter fun t => t.enabled).map fun t => (t.ringFirst, t.ringCount)

/-- The evidence region (R151). -/
def Image.region (g : Image) : PageRange := (g.regionFirst, g.regionCount)

/-- The number of pages of a record memory size (R112). -/
def Image.pages (g : Image) : Nat := g.memoryGiB * 8192

/-- Do two ranges share a page? -/
def sharePage (a b : PageRange) : Bool := decide (a.1 < b.1 + b.2) && decide (b.1 < a.1 + a.2)

/-- Do any two of the ranges share a page? -/
def anyShared : List PageRange → Bool
  | [] => false
  | a :: rest => rest.any (sharePage a) || anyShared rest

/-- Is a region's page count a power of two from 1 to 128 (R176)? -/
def regionSizeOk (n : Nat) : Bool := [1, 2, 4, 8, 16, 32, 64, 128].contains n

/-- The reason an image whose fields are within their values is refused, if it is; the first test it fails gives it (R176). -/
def Image.refusal (g : Image) : Option ImageReason :=
  if g.rings.any fun r => decide (r.2 < 8) then some .ringSize
  else if (g.region :: g.rings).any fun r => decide (g.pages < r.1 + r.2) then some .beyondMemory
  else if anyShared (g.region :: g.rings) then some .overlap
  else if !regionSizeOk g.regionCount then some .regionSize
  else none

/-- An image judged: the image where it is valid, or the reason it is refused (R176). -/
def judgeImage (bytes : Bytes) : Except ImageReason Image :=
  match readImage bytes with
  | none => .error .range
  | some g =>
    match g.refusal with
    | some reason => .error reason
    | none => .ok g

/-! ### Loading (R177) -/

/-- What is read from serial flash, judged: an incomplete image or one whose CRC-32 does not match is refused with CHECK (R176,
R179). -/
def Flash.judge : Flash → Except ImageReason Image
  | .incomplete => .error .check
  | .stored bytes crc => if crc32 bytes = crc then judgeImage bytes else .error .check

/-- The image that becomes the image copy: the stored one where it is valid, and otherwise the default image (R177). -/
def Flash.image (f : Flash) : Image :=
  match f.judge with
  | .ok g => g
  | .error _ => defaultImage

/-- Is the stored image refused (R177)? -/
def Flash.refused (f : Flash) : Bool :=
  match f.judge with
  | .ok _ => false
  | .error _ => true

/-- An enabled outlet waits for its first frame, and any other is OFF (R11, R15). -/
def returnedState (st : OutletSettings) : OutletState := if st.enabled then .waiting else .off

/-- Every outlet in the state the settings in force give it (R11). -/
def State.returnOutlets (s : State) : State :=
  { s with outlets := Vector.ofFn fun o : OutletId =>
      { s.outlets[o] with intake := { s.outlets[o].intake with state := returnedState (s.outletSettings o) } } }

/-- The profile store after loading (R94). -/
def loadedProfiles (p : Profile) : ProfileStore :=
  { slot0 := some { version := 1, profile := p }, slot1 := none, latestIsOne := false }

/-- Loading completes with an image: it becomes the copy and the settings in force (R177). -/
def State.load (s : State) (g : Image) : State :=
  ({ s with
      loading := false
      imageCopy := g
      settings := g
      profiles := loadedProfiles g.profile
      links :=
        { automation := { s.links.automation with mask := g.masks.automation }
          compliance := { s.links.compliance with mask := g.masks.compliance } } }).returnOutlets.createNow none
    (.profileApplied 1 none false)

/-- The settings image is judged and put in force; where it is refused SETTINGS is raised with cause DEFAULTS (R177). -/
def State.completeLoad (s : State) : State :=
  (if s.flash.refused then s.raiseSettings .defaults else s).load s.flash.image

/-- SETTINGS_LOAD_COMPLETE: loading completes (R177). -/
def execSettingsLoadComplete (s : State) : Host.Outcome State Fault Refusal := when (s.powered && s.loading) s.completeLoad s

/-! ### Saving (R179) -/

/-- SETTINGS-SAVE (R179). -/
def saveSettings (l : Link) (r : Request) (s : State) : State :=
  match judgeImage r.body with
  | .error reason => s.answer l r .badArg (.imageRefused reason)
  | .ok g =>
    if s.save.isSome || s.restarting.isSome then s.answer l r .busy .none
    else { s with save := some { image := g, bytes := r.body, tag := some r.tag } }

/-- SETTINGS_SAVE: SETTINGS-SAVE at the head of a link's request queue is carried out (R179, R163). -/
def execSettingsSave (l : Link) (s : State) : Host.Outcome State Fault Refusal :=
  serve l 18 (l = .compliance) (saveSettings l) s

/-- A save's flash write completes (R179). That flash holds the fields as the SETTINGS-SAVE carried them, with the CRC-32 over those
bytes, is the model's choice (log entry 33). -/
def State.completeSave (s : State) (v : Save) : State :=
  let saved := ({ s with flash := .stored v.bytes (crc32 v.bytes), imageCopy := v.image, save := none }).raiseSettings .saved
  match v.tag with
  | some tag => saved.respond .compliance tag 18 .ok .none
  | none => saved

/-- SETTINGS_SAVE_COMPLETE: the flash write of the save in flight completes (R179). -/
def execSettingsSaveComplete (s : State) : Host.Outcome State Fault Refusal :=
  match s.save with
  | some v => when s.powered (s.completeSave v) s
  | none => idle s

/-! ### Power (R177, R179) -/

/-- What flash holds once power is lost: a write in progress leaves an incomplete image (R179). -/
def State.flashAfterLoss (s : State) : Flash := if s.save.isSome then .incomplete else s.flash

/-- The power-on state at an instant: serial flash, the reset lines' levels, the commands waiting and the count of free values are
all that is left of the state before (R177; log entries 8 and 13). -/
def State.powerOnAt (s : State) (t : Instant) : State :=
  { State.reset with
    flash := s.flashAfterLoss
    time := powerOnTime t
    links :=
      { automation := powerOnPort s.links.automation.resetLine, compliance := powerOnPort s.links.compliance.resetLine }
    free := s.free
    pending := s.pending }

/-- POWER_ON: power is applied at an instant, every block takes its power-on state, and loading begins (R177). -/
def execPowerOn (t : Instant) (s : State) : Host.Outcome State Fault Refusal := done (s.powerOnAt t)

/-- POWER_LOSS: power is lost; serial flash alone keeps its content, incomplete where a save was being written (R179). -/
def execPowerLoss (s : State) : Host.Outcome State Fault Refusal :=
  when s.powered { s.powerOnAt 0 with powered := false, loading := false } s

end Sys2Proof.Machine
end

