-- ==== Sys2Proof/Machine/Restart.lean ====
section
/-! DEFINITION. RESTART (R180 to R182), with the restart work of each block (R15, R54, R91, R111, R133, R134, R146, R160, R168). -/

namespace Sys2Proof.Machine

/-! ### Steps 1 and 2: deferred reads, closes and verdicts -/

/-- What the Scheduler discards and closes on an outlet (R54). -/
def restartNote (q : Sched) : RestartNote :=
  { pending := q.queue.length, armed := q.armed.map fun a => a.decl.id, closed := q.current.map fun c => c.decl.id }

/-- The notes of every outlet (R54). -/
def State.restartNotes (s : State) : Vector RestartNote 8 := s.outlets.map fun t => restartNote t.sched

/-- The deferred reads of both links (R168, R182). -/
def State.deferredCount (s : State) : Nat := (s.link .automation).deferred.length + (s.link .compliance).deferred.length

/-- Every deferred page read of both links answered ABORTED (R168). -/
def State.abortAll (s : State) : State := abortDeferred .compliance (abortDeferred .automation s)

/-- The current segment and open break of an outlet closed by restart, with the final true-peak maximum (R54, R70, R73). -/
def State.closeOutlet (s : State) (o : OutletId) : State :=
  ((s.closeSegment o .restart .restart s.time.air).closeBreak o .restart s.time.air).finishPeaks o

/-- The outlets that have a current segment. -/
def State.currentOutlets (s : State) : List OutletId := allOutlets.filter fun o => (s.current o).isSome

/-- The closes of every outlet, one outlet's before or after another's (R54). -/
def State.closeOutlets (s : State) : State := (s.shuffled s.currentOutlets).foldl State.closeOutlet (s.useFree 1)

/-- The restart values of an outlet's Return Intake; the outlet is OFF (R15). -/
def Intake.restarted (i : Intake) : Intake :=
  { i with state := .off, expected := none, lossTimer := 0, lostTicks := 0, lastArrival := none }

/-- The restart values of an outlet's blocks but its writer (R15, R55, R76, R91, R111). -/
def Outlet.restarted (t : Outlet) : Outlet :=
  { t with intake := t.intake.restarted, sched := restSched, loud := restLoud, subs := restSubs, verdict := restVerdict }

/-- Closing slots still awaiting their final maximum are completed first, then every segment and break is closed and judged, and
the outlets take their restart values, OFF (R54, R99, R111, R180 step 2). -/
def State.closeAll (s : State) : State :=
  let settled := (s.eachOutlet fun o s => s.finishPeaks o).formVerdicts allOutlets
  let judged := settled.closeOutlets.formVerdicts allOutlets
  { judged with outlets := judged.outlets.map Outlet.restarted }

/-! ### Steps 3 and 4: the reload and the record store -/

/-- The ring of an outlet in a layout: absent unless it is enabled (R181). -/
def OutletSettings.layout (t : OutletSettings) : Option PageRange := if t.enabled then some (t.ringFirst, t.ringCount) else none

/-- Is a reload of the image copy clearing: do the ring layout or the evidence region differ (R181)? -/
def State.clearing (s : State) (reload : Bool) : Bool :=
  reload && ((s.imageCopy.outlets.map OutletSettings.layout) != (s.settings.outlets.map OutletSettings.layout) ||
    s.imageCopy.region != s.settings.region)

/-- The image copy put in force by a reload, except for its initial profile (R175, R181). -/
def State.applyReload (s : State) (reload : Bool) : State := 
  if reload then { s with settings := { s.imageCopy with profile := s.settings.profile } } else s

/-- Does a FIFO hold a frame record? -/
def holdsRecord (fifo : List FifoItem) : Bool := fifo.any fun i => match i with | .record _ => true | .closeMark => false

/-- A close mark put behind a FIFO's records; one reached at once closes the page (R133). -/
def State.markWriter (s : State) (o : OutletId) : State :=
  let w := (s.outlet o).writer
  let marked := s.modWriter o fun w => { w with fifo := w.fifo ++ [.closeMark] }
  match w.mode with
  | .writing => if w.fifo.isEmpty then marked.reachMark o else marked
  | .idle => if holdsRecord w.fifo then marked else s
  | .suspended => s

/-- The record store kept, with its close marks (R133). -/
def State.keepRecords (s : State) : State := s.eachOutlet fun o s => s.markWriter o

/-- A read of a fetch queue after a clearing reload: an EVID-READ will be answered SHORT (R160). -/
def Fetch.overtaken : Fetch → Fetch
  | .evid tag first fixed asked _ => .evid tag first fixed asked true
  | .page tag o q number offset length short => .page tag o q number offset length short

/-- The number of evidence records a clearing reload discards (R182). -/
def Evidence.discarded (e : Evidence) : Nat := e.unacknowledged + e.fifo.length

/-- An outlet whose writer has its clearing reload values (R134). -/
def Outlet.clearWriter (t : Outlet) : Outlet := { t with writer := restWriter }

/-- The record state cleared (R134, R146, R160). -/
def State.clearRecords (s : State) : State :=
  ({ s with directory := [], holds := [], evidence := restEvidence, outlets := s.outlets.map Outlet.clearWriter }).modLinks
    fun p => { p with fetches := p.fetches.map Fetch.overtaken }

/-- What a clearing reload removes, as the RESTART record states it: holds and evidence records (R182). -/
def State.removed (s : State) (clearing : Bool) : Nat × Nat := if clearing then (s.holds.length, s.evidence.discarded) else (0, 0)

/-- The record store taken to its restart values, with both rotation positions at their start (R131, R134, R180 step 4). -/
def State.restartRecords (s : State) (clearing : Bool) : State :=
  { (if clearing then s.clearRecords else s.keepRecords) with highPos := 0, lowPos := 0 }

/-! ### Steps 5 to 7: the RESTART record, the outlets' return and the answer -/

/-- Which outlets the settings in force return to WAITING (R182). -/
def State.waitingOutlets (s : State) : Vector Bool 8 := s.settings.outlets.map fun t => t.enabled

/-- The restart answered, unless its link was reset (R180, R182). -/
def State.answerRestart (s : State) (p : RestartProgress) (cleared : Bool) (sequence : BitVec 32) : State :=
  match p.tag with
  | none => s
  | some tag =>
    (s.modLink .compliance fun q => { q with held := none }).respond .compliance tag 19 .ok (.restart p.reload cleared sequence)

/-- Steps 3 to 7 of a restart (R180). -/
def State.finishRestart (s : State) (p : RestartProgress) (cleared : Bool) : State :=
  let reloaded := s.applyReload p.reload
  let settled := reloaded.restartRecords cleared
  let written := settled.createNow none
    (.restart p.reload cleared p.notes reloaded.waitingOutlets (s.removed cleared).1 (s.removed cleared).2 p.aborted)
  ({ written with restarting := none }).returnOutlets.answerRestart p cleared settled.evidence.sequence

/-- A clearing restart that waited for a burst goes on once the port is free (R134, R180). -/
def State.resumeRestart (s : State) : State :=
  match s.restarting with
  | some p => if s.port.isNone then s.finishRestart p true else s
  | none => s

/-- A restart that waits for a burst: the compliance link is held meanwhile (R134, R164, R180). -/
def State.awaitBurst (s : State) (p : RestartProgress) : State :=
  ({ s with restarting := some p }).modLink .compliance fun q => { q with held := p.tag }

/-- A RESTART taken: steps 1 and 2, then the rest at once, or, where a clearing reload meets a burst in progress, after it (R134,
R180). -/
def State.runRestart (s : State) (reload : Bool) (tag : Tag) : State :=
  let progress : RestartProgress := { reload := reload, tag := some tag, notes := s.restartNotes, aborted := s.deferredCount }
  let closed := s.abortAll.closeAll
  let clearing := closed.clearing reload
  if clearing && closed.port.isSome then closed.awaitBurst progress else closed.finishRestart progress clearing

/-- RESTART (R180). -/
def restartRequest (l : Link) (r : Request) (s : State) : State :=
  withArgs l r (readRestart r.body) s fun reload =>
    if s.restarting.isSome || (reload && s.save.isSome) then s.answer l r .busy .none else s.runRestart reload r.tag

/-- RESTART: RESTART at the head of a link's request queue is carried out (R180, R163). -/
def execRestart (l : Link) (s : State) : Host.Outcome State Fault Refusal :=
  serve l 19 (l = .compliance) (restartRequest l) s

end Sys2Proof.Machine
end

