-- ==== Sys2Proof/Machine/Bursts.lean ====
section
/-! DEFINITION. The completions of bursts on the record-memory port (R122, R128, R132, R153, R157, R167). -/

namespace Sys2Proof.Machine

/-- The port freed by a completed burst; a clearing restart that waited for it goes on (R130, R134). -/
def State.freePort (s : State) : State := ({ s with port := none }).resumeRestart

/-- The bytes of a writer's burst stored (R122). -/
def State.storeBurst (s : State) (p : Placed) (r : FrameRecord) (n : Nat) : State :=
  { s with memory := writeBytes s.memory p.address ((r.bytes.drop p.written).take n) }

/-- A page entry after a frame record is complete in it (R122). -/
def PageEntry.complete (e : PageEntry) (r : FrameRecord) : PageEntry :=
  { e with
    fill := e.fill + r.bytes.length
    frameCount := e.frameCount + 1
    span := some (match e.span with | some (a, b) => (a.earlier r.stamp, b.later r.stamp) | none => (r.stamp, r.stamp))
    rfns := some (match e.rfns with | some (a, _) => (a, r.rfn) | none => (r.rfn, r.rfn))
    flags := e.flags ||| r.flags }

/-- A frame record's write complete: the entry, the FIFO, and the fill report (R122). -/
def State.completeRecord (s : State) (o : OutletId) (p : Placed) (r : FrameRecord) : State :=
  report o p.page false
    ((s.modPage p.page fun e => e.complete r).modWriter o fun w => { w with placed := none, fifo := w.fifo.tail })

/-- RECORD_BURST_COMPLETE: a write burst of a frame record that is not its last completes (R122, R130). -/
def execRecordBurstComplete (s : State) : Host.Outcome State Fault Refusal :=
  match s.port with
  | some (.record o n false) =>
    match (s.outlet o).writer.inProgress with
    | some (p, r) =>
      done ((s.storeBurst p r n).modWriter o fun w => { w with placed := some { p with written := p.written + n } }).freePort
    | none => done s.freePort
  | _ => idle s

/-- RECORD_WRITE_COMPLETE: the last burst of a frame record completes (R122). -/
def execRecordWriteComplete (s : State) : Host.Outcome State Fault Refusal :=
  match s.port with
  | some (.record o n true) =>
    match (s.outlet o).writer.inProgress with
    | some (p, r) => done ((s.storeBurst p r n).completeRecord o p r).freePort
    | none => done s.freePort
  | _ => idle s

/-- EVIDENCE_BURST_COMPLETE: an evidence burst completes (R153). -/
def execEvidenceBurstComplete (s : State) : Host.Outcome State Fault Refusal :=
  match s.port with
  | some (.evidence n) => done (s.writeEvidence n).freePort
  | _ => idle s

/-- A page read's answer: the page looked up again, STALE where it no longer holds the sequence (R128, R167). -/
def State.answerPage (s : State) (l : Link) (tag : Tag) (o : OutletId) (q : BitVec 32) (page offset length : Nat) (short : Bool) :
    State :=
  match s.findPage o q with
  | none => s.respond l tag 11 .stale .none
  | some x =>
    s.respond l tag 11 (if short then .short else .ok)
      (.pageRead (readBytes s.memory (page * pageSize + offset) length) x.2.state x.2.fill)

/-- The link freed, where this fetch held it (R164). -/
def State.releaseLink (s : State) (l : Link) (tag : Tag) : State :=
  s.modLink l fun p => { p with held := if p.held = some tag then none else p.held }

/-- PAGE_READ_FETCH_COMPLETE: the fetch of a page read completes and is answered; one given up by a link reset is discarded (R128,
R167, R173). -/
def execPageReadFetchComplete (s : State) : Host.Outcome State Fault Refusal :=
  match s.port with
  | some (.read l (.page tag o q page offset length short) abandoned) =>
    if abandoned then done s.freePort
    else done ((s.answerPage l tag o q page offset length short).releaseLink l tag).freePort
  | _ => idle s

/-- EVID_READ_FETCH_COMPLETE: the fetch of an evidence read completes and is answered; one that a clearing reload overtook is
answered SHORT with no records, and one given up by a link reset is discarded (R157, R160, R173). That a read whose burst a clearing
reload waits for is answered with its records, before the clearing, is the model's reading (log entry 20). -/
def execEvidReadFetchComplete (s : State) : Host.Outcome State Fault Refusal :=
  match s.port with
  | some (.read l (.evid tag first fixed asked cleared) abandoned) =>
    if abandoned then done s.freePort
    else if cleared then done ((s.answerRead l tag .short none []).releaseLink l tag).freePort
    else done ((s.finishRead l tag first fixed asked).releaseLink l tag).freePort
  | _ => idle s

end Sys2Proof.Machine
end

