-- ==== Sys2Proof/Machine/Cues.lean ====
section
/-! DEFINITION. Cue lines (R27 to R30): accepted edges, capture records and CUE-READ. -/

namespace Sys2Proof.Machine

/-- Is an edge at an instant accepted on a line: not less than 80 ms after the previous accepted one (R27)? -/
def CueRecord.accepts (c : CueRecord) (t : Instant) : Bool :=
  match c.acceptedAt with
  | some u => decide (u + ms 80 ≤ t)
  | none => true

/-- A capture record after an accepted edge (R28). -/
def CueRecord.capture (c : CueRecord) (stamp : AirTime) (t : Instant) : CueRecord :=
  { count := min 255 (c.count + 1), first := some (c.first.getD stamp), last := some stamp, acceptedAt := some t }

/-- The capture record of a line. -/
def State.cue (s : State) (k : CueLine) : CueRecord := s.cues[k]

/-- The state with a line's capture record changed. -/
def State.setCue (s : State) (k : CueLine) (c : CueRecord) : State := { s with cues := s.cues.set k c }

/-- The STRAY_CUE record of an edge that triggered no outlet (R28). -/
def strayDraft (k : CueLine) (stamp : AirTime) (count : Nat) : Draft :=
  { outlet := none, stamp := stamp, body := .strayCue k count }

/-- An accepted edge: captured, CUE raised, offered to the Scheduler, and STRAY_CUE when it triggers no outlet (R28). -/
def State.acceptEdge (s : State) (k : CueLine) (t : Instant) : State :=
  let stamp := s.time.air
  let captured := (s.setCue k ((s.cue k).capture stamp t)).raiseBoth .cue
  if s.cueTargets k = 0 then captured.create (strayDraft k stamp ((captured.cue k).count))
  else captured.eachOutlet fun o s => s.cueTrigger o k stamp

/-- CUE_EDGE: a rising edge on a cue line; during loading, or less than 80 ms after the previous accepted one, it is ignored (R27,
R28). -/
def execCueEdge (k : CueLine) (t : Instant) (s : State) : Host.Outcome State Fault Refusal :=
  when (s.powered && !s.loading && (s.cue k).accepts t) (s.acceptEdge k t) s

/-- The lines of a set, ascending (R29). -/
def linesOf (set : Nat) : List CueLine := (List.finRange 16).filter fun k => set.testBit k.val

/-- A capture record after CUE-READ: the count and the first stamp go, the last stamp stays (R29). -/
def CueRecord.clear (c : CueRecord) : CueRecord := { c with count := 0, first := none }

/-- CUE-READ (R29). -/
def readCues (l : Link) (r : Request) (s : State) : State :=
  withArgs l r (readCueRead r.body) s fun set =>
    let read := (linesOf set).map fun k => (k, s.cue k)
    let cleared := (linesOf set).foldl (fun s k => s.setCue k (s.cue k).clear) s
    cleared.answer l r .ok (.cueRead read)

/-- CUE_READ: CUE-READ at the head of a link's request queue is carried out (R29, R163). -/
def execCueRead (l : Link) (s : State) : Host.Outcome State Fault Refusal := serve l 7 true (readCues l) s

end Sys2Proof.Machine
end

