-- ==== Sys2Proof/Machine/Links.lean ====
section
/-! DEFINITION. The Link Ports (chapter 10): messages, flags, masks, status, meter readings and link resets. -/

namespace Sys2Proof.Machine

/-! ### Messages (R161, R162, R165) -/

/-- A well-formed request at its port: accepted, or discarded with LINK_ERROR (R162). That a duplicate tag meeting 8 outstanding
requests is reported as DUPLICATE_TAG is the model's choice (log entry 31). -/
def State.accept (s : State) (l : Link) (r : Request) : State :=
  if r.tag ∈ (s.link l).outstanding then s.raiseLinkError l .duplicateTag
  else if 8 ≤ (s.link l).outstanding.length then s.raiseLinkError l .tooMany
  else s.modLink l fun p => { p with outstanding := p.outstanding ++ [r.tag], requests := p.requests ++ [r] }

/-- A delimited message taken (R161, R162). -/
def State.receive (s : State) (l : Link) (bytes : Bytes) : State :=
  match readMessage bytes with
  | .discard reason => s.raiseLinkError l reason
  | .request r => s.accept l r

/-- MESSAGE_RECEIVED: a delimited message on a link; while the link's reset line is asserted it is discarded (R161, R162, R173). -/
def execMessageReceived (l : Link) (bytes : Bytes) (s : State) : Host.Outcome State Fault Refusal :=
  when (s.powered && !(s.link l).resetLine) (s.receive l bytes) s

/-- LINK_BYTES_UNDELIMITED: a run of bytes that makes no message: LINK_ERROR with reason MALFORMED, once (R161). -/
def execLinkBytesUndelimited (l : Link) (_bytes : Bytes) (s : State) : Host.Outcome State Fault Refusal :=
  when (s.powered && !(s.link l).resetLine) (s.raiseLinkError l .malformed) s

/-- RESPONSE_SENT: the last byte of the response at the head of the queue is sent, and it leaves the queue (R165). -/
def execResponseSent (l : Link) (s : State) : Host.Outcome State Fault Refusal :=
  when (s.powered && !(s.link l).resetLine && !(s.link l).responses.isEmpty)
    (s.modLink l fun p => { p with responses := p.responses.tail }) s

/-! ### Status and meter (R75, R172) -/

/-- What STATUS says of an outlet (R172). -/
def Outlet.status (t : Outlet) : OutletStatus :=
  { state := t.intake.state, writer := t.writer.mode, depth := t.sched.queue.length, armed := t.sched.armed.isSome }

/-- What STATUS says of a ring (R172). -/
def State.ringStatus (s : State) (o : OutletId) : RingStatus :=
  { pages := (s.outletSettings o).ringCount, opened := s.countPages o .opened, closed := s.countPages o .closed,
    released := s.countPages o .released, held := s.heldPages o, budget := s.budget o }

/-- STATUS (R172). -/
def readStatus (l : Link) (r : Request) (s : State) : State :=
  withArgs l r (readNothing r.body) s fun _ =>
    s.answer l r .ok
      (.status (s.outlets.map Outlet.status) s.time.ref s.time.air
        ((allOutlets.filter fun o => (s.outletSettings o).enabled).map fun o => (o, s.ringStatus o)) s.holds.length
        s.evidence.head s.evidence.tail s.evidence.cursor s.evidence.lost s.capacity (s.save.map fun _ => .compliance)
        (s.link l).outstanding.length (s.link l).deferred.length)

/-- The readings of an outlet (R75); the integrated loudness so far is the reduction of the current segment's record. -/
def State.meter (s : State) (o : OutletId) : Body :=
  let t := s.outlet o
  .meterRead t.loud.momentary t.loud.shortTerm (t.loud.seg.map fun g => g.record.reduce s.free)
    (t.loud.seg.map fun g => g.record.truePeak) (t.loud.seg.bind fun g => g.record.gatingMax)
    (t.sched.current.map fun c => (c.decl.id, c.frameCount)) t.subs.showing t.subs.gap.isSome t.verdict.line

/-- METER-READ (R75). -/
def readMeter (l : Link) (r : Request) (s : State) : State :=
  withArgs l r (readOutlet r.body) s fun o => (s.answer l r .ok (s.meter o)).useFree 2

/-! ### Flags and masks (R169 to R171) -/

/-- FLAGS-READ (R170). That the state of the EVIDENCE condition is among its fields follows R170, where R159 says that FLAGS-READ
does not read it: the model's choice (log entry 30). -/
def readFlags (l : Link) (r : Request) (s : State) : State :=
  withArgs l r (readNothing r.body) s fun _ =>
    let p := s.link l
    s.answer l r .ok (.flagsRead p.flags p.reason p.cause (s.evidence.condition l) p.mask)

/-- A port with the named flags and their details cleared (R170). -/
def LinkPort.clearFlags (p : LinkPort) (x : FlagSet) : LinkPort :=
  { p with flags := p.flags.minus x, reason := if x.linkError then none else p.reason,
           cause := if x.settings then none else p.cause }

/-- FLAGS-CLEAR (R170). -/
def clearFlags (l : Link) (r : Request) (s : State) : State :=
  withArgs l r (readFlagsClear r.body) s fun x =>
    (s.modLink l fun p => p.clearFlags x).answer l r .ok (.flagsClear (s.link l).flags)

/-- MASK-SET (R171). -/
def setMask (l : Link) (r : Request) (s : State) : State :=
  withArgs l r (readMaskSet r.body) s fun m =>
    (s.modLink l fun p => { p with mask := m }).answer l r .ok (.maskSet (s.link l).mask m)

/-! ### Link reset (R173) -/

/-- The default mask of a link: of the settings in force, and empty while loading (R171, R174). -/
def State.defaultMask (s : State) (l : Link) : Mask := if s.loading then emptyMask else s.settings.masks.get l

/-- A port after a link reset, with what stays outstanding (R173). The reads of the fetch queue stay in it, given up, until they are
granted: the model's reading of a fetch that waits for its grant (R160, R173; log entry 32). -/
def LinkPort.afterReset (p : LinkPort) (keep : List Tag) (mask : Mask) : LinkPort :=
  { powerOnPort p.resetLine with outstanding := keep, mask := mask, fetches := p.fetches, givenUp := p.fetches.length }

/-- A burst in progress after a reset of a link: its read is given up (R173). -/
def Burst.giveUp (l : Link) : Burst → Burst
  | .read m f abandoned => .read m f (abandoned || m == l)
  | .record o n last => .record o n last
  | .evidence n => .evidence n

/-- What a reset of the compliance link gives up at the Settings Loader: the responses of a save and of a restart (R179, R180). -/
def State.giveUpSettings (s : State) : Link → State
  | .compliance => { s with save := s.save.map fun v => { v with tag := none },
                            restarting := s.restarting.map fun v => { v with tag := none } }
  | .automation => s

/-- What a reset of the automation link does to the evidence ring (R160, R173). -/
def Evidence.linkReset (e : Evidence) : Link → Evidence
  | .automation => { e with cursor := e.tail, skipped := 0 }
  | .compliance => e

/-- A link reset, with what stays outstanding (R173). -/
def State.resetLink (s : State) (l : Link) (keep : List Tag) : State :=
  let given := s.giveUpSettings l
  { given with
    time := { s.time with pendingSet := s.time.pendingSet.filter fun p => p.link != l }
    port := s.port.map (Burst.giveUp l)
    evidence := s.evidence.linkReset l
    links := s.links.modify (fun p => p.afterReset keep (s.defaultMask l)) l }

/-- LINK-RESET (R173). -/
def resetRequest (l : Link) (r : Request) (s : State) : State :=
  withArgs l r (readNothing r.body) s fun _ => (s.resetLink l [r.tag]).answer l r .ok .none

/-- STATUS: STATUS at the head of a link's request queue is carried out (R172, R163). -/
def execStatus (l : Link) (s : State) : Host.Outcome State Fault Refusal := serve l 20 true (readStatus l) s

/-- METER_READ: METER-READ at the head of a link's request queue is carried out (R75, R163). -/
def execMeterRead (l : Link) (s : State) : Host.Outcome State Fault Refusal := serve l 21 true (readMeter l) s

/-- FLAGS_READ: FLAGS-READ at the head of a link's request queue is carried out (R170, R163). -/
def execFlagsRead (l : Link) (s : State) : Host.Outcome State Fault Refusal := serve l 22 true (readFlags l) s

/-- FLAGS_CLEAR: FLAGS-CLEAR at the head of a link's request queue is carried out (R170, R163). -/
def execFlagsClear (l : Link) (s : State) : Host.Outcome State Fault Refusal := serve l 23 true (clearFlags l) s

/-- MASK_SET: MASK-SET at the head of a link's request queue is carried out (R171, R163). -/
def execMaskSet (l : Link) (s : State) : Host.Outcome State Fault Refusal := serve l 24 true (setMask l) s

/-- LINK_RESET: LINK-RESET at the head of a link's request queue is carried out, while loading too (R163, R173). -/
def execLinkReset (l : Link) (s : State) : Host.Outcome State Fault Refusal :=
  match s.nextRequest l with
  | none => idle s
  | some r => if r.code = 25 then done (resetRequest l r (s.takeRequest l)) else idle s

/-- The level of a link's reset line input set. -/
def State.setResetLine (s : State) (l : Link) (level : Bool) : State := s.modLink l fun p => { p with resetLine := level }

/-- LINK_RESET_LINE_RISE: the rising edge of a link's reset line resets the link (R173). -/
def execLinkResetLineRise (l : Link) (s : State) : Host.Outcome State Fault Refusal :=
  if (s.link l).resetLine then idle s
  else if s.powered then done ((s.resetLink l []).setResetLine l true)
  else done (s.setResetLine l true)

/-- LINK_RESET_LINE_FALL: the falling edge of a link's reset line; the link resumes and its attention line is evaluated (R173). -/
def execLinkResetLineFall (l : Link) (s : State) : Host.Outcome State Fault Refusal :=
  when (s.link l).resetLine (s.setResetLine l false) s

/-- Does a request code name a request (R187)? -/
def namesRequest (code : Byte) : Bool := decide (1 ≤ code.toNat) && decide (code.toNat ≤ 25)

/-- UNKNOWN_REQUEST_CODE: a request whose code names no request is answered BAD_ARG, and BUSY while loading (R163). -/
def execUnknownRequestCode (l : Link) (s : State) : Host.Outcome State Fault Refusal :=
  match s.nextRequest l with
  | none => idle s
  | some r =>
    if namesRequest r.code then idle s
    else done ((s.takeRequest l).answer l r (if s.loading then .busy else .badArg) .none)

end Sys2Proof.Machine
end

