-- ==== Sys2Proof/Machine/TimeBase.lean ====
section
/-! DEFINITION. The Time Base (R16 to R26): frame ticks, the station reference, reference states, steps and TIME-SET. -/

namespace Sys2Proof.Machine

/-- The Time Base changed. -/
def State.modTime (s : State) (f : TimeBase → TimeBase) : State := { s with time := f s.time }

/-! ### Frame ticks (R16, R17) -/

/-- Air time after a frame tick, with the HOLDOVER tick count (R16, R20). -/
def TimeBase.tick (b : TimeBase) : TimeBase :=
  { b with air := b.air.tick, holdoverTicks := if b.ref = .holdover then satAdd max32 b.holdoverTicks 1 else b.holdoverTicks }

/-- A frame tick, reported to Return Intake, the Scheduler and both Link Ports; the records it brings come in either order (R16,
R149). -/
def State.tick (s : State) : State :=
  let intake := (s.modTime TimeBase.tick).eachDraft State.tickIntake
  let timed := intake.1.eachDraft fun s o => s.testTimed o .lateDeclare
  (tickDeferred .compliance (tickDeferred .automation timed.1)).createAnyOrder (intake.2 ++ timed.2)

/-- A frame tick taken for an accepted frame pulse; the air time it brings is kept for REFERENCE_LOST (R20). -/
def State.pulseTick (s : State) : State := s.tick.modTime fun b => { b with pulseTick := some b.air }

/-- The period of the local oscillator (R17). -/
def oscillatorPeriod : Instant := ms 40

/-! ### Steps (R21, R22, R24) -/

/-- A step of air time to `new`, with the reference state it leaves: TIME_STEP, TIME on both links, and the Scheduler (R22). That
TIME_STEP of the Time Base comes before the LATE_START records of the Scheduler is the model's choice among the orders R149 allows
(log entry 4). -/
def State.stepTime (s : State) (cause : StepCause) (new : AirTime) (ref : RefState) : State :=
  let old := s.time.air
  let written := (s.modTime fun b => { b with air := new }).create
    { outlet := none, stamp := new, body := .timeStep cause old new (old.stepTo new) ref }
  (written.raiseBoth .time).stepScheduler

/-- The value of a pending set: its second, frame 0 (R24). -/
def PendingSet.value (p : PendingSet) : AirTime := { seconds := p.seconds, frame := 0 }

/-- The pending set cleared and answered OK (R24). -/
def State.answerSet (s : State) (p : PendingSet) (old : AirTime) (ref : RefState) : State :=
  (s.modTime fun b => { b with pendingSet := none }).respond p.link p.tag 6 .ok (.timeSet old p.value ref)

/-- The reference state that a set in UNSET leads to (R19, R24). -/
def TimeBase.settled (b : TimeBase) : RefState :=
  match b.ref with
  | .unset => if b.qualification = 25 then .locked else .holdover
  | .locked => .locked
  | .holdover => .holdover

/-- Entering a reference state by a set: LOCKED stops the local oscillator, and HOLDOVER from UNSET begins its tick count at 0
(R24). -/
def TimeBase.enter (b : TimeBase) (ref : RefState) : TimeBase :=
  { b with ref := ref, oscillator := if ref = .locked then none else b.oscillator,
           holdoverTicks := if b.ref = .unset then 0 else b.holdoverTicks }

/-- A pending set applied at a second boundary whose tick has been taken, outside a lock (R24). -/
def State.applySet (s : State) (p : PendingSet) : State :=
  let ref := s.time.settled
  ((s.stepTime .set p.value ref).modTime fun b => b.enter ref).answerSet p s.time.air ref

/-! ### Lock (R21) -/

/-- The end of a lock: LOCKED, REFERENCE_RESTORED and TIME (R21 steps 4 to 6). -/
def State.enterLocked (s : State) (step : Int) : State :=
  ((s.modTime fun b => { b with ref := .locked }).createNow none (.referenceRestored s.time.holdoverTicks step)).raiseBoth .time

/-- A lock after its tick: a pending set applied in place of the rounding, or the rounding where it changes air time (R21, R24).
That the LATE_START records of the step come before REFERENCE_RESTORED is the model's choice among the orders R149 allows (log entry
4). -/
def State.lockStep (s : State) : State :=
  match s.time.pendingSet with
  | some p =>
    ((s.stepTime .set p.value .locked).enterLocked (s.time.air.stepTo p.value)).answerSet p s.time.air .locked
  | none =>
    let new := s.time.air.rounded
    (if new = s.time.air then s else s.stepTime .lock new .locked).enterLocked (s.time.air.stepTo new)

/-- A lock in HOLDOVER: the oscillator stops, the locking pulse is taken as a tick, and air time is settled (R21). -/
def State.lock (s : State) : State := ((s.modTime fun b => { b with oscillator := none }).pulseTick).lockStep

/-! ### Frame pulses and second pulses (R18, R19) -/

/-- The effect of a mark on an accepted frame pulse: a lock, or a pending set applied. Where the pulse was not taken as a tick, the
tick is taken at the mark (R18, R21, R24). -/
def State.markPulse (s : State) (ticked : Bool) : State :=
  match s.time.ref with
  | .unset => s
  | .holdover => if s.time.qualification = 25 then s.lock else s
  | .locked =>
    match s.time.pendingSet with
    | none => s
    | some p => (if ticked then s else s.pulseTick).applySet p

/-- The qualification count after an accepted frame pulse (R19). -/
def TimeBase.qualify (b : TimeBase) (wellSpaced : Bool) : Nat := if wellSpaced then min 25 (b.qualification + 1) else 1

/-- What a frame pulse is, by its spacing from the previous accepted one (R18). -/
inductive Spacing where
  | tooClose
  | wellSpaced
  | accepted
  deriving DecidableEq, Repr

/-- The spacing of a frame pulse at an instant (R18). -/
def TimeBase.spacing (b : TimeBase) (t : Instant) : Spacing :=
  match b.previous with
  | none => .accepted
  | some p => if t - p < ms 38 then .tooClose else if t - p ≤ ms 42 then .wellSpaced else .accepted

/-- Did the latest second pulse come within 2 ms before an instant (R18)? -/
def TimeBase.markedAt (b : TimeBase) (t : Instant) : Bool :=
  match b.lastSecond with
  | some q => decide (t ≤ q + ms 2)
  | none => false

/-- A frame pulse noted, with its mark; the second pulse that marks it is used up (R18). -/
def TimeBase.notePulse (b : TimeBase) (t : Instant) (accepted : Bool) : TimeBase :=
  { b with
    lastPulse := some { time := t, accepted := accepted, marked := b.markedAt t, ticked := accepted && b.ref == .locked }
    lastSecond := none }

/-- An accepted frame pulse: it restarts the watchdog, is counted toward qualification, and is a tick in LOCKED; then its mark (R17
to R19). -/
def State.acceptPulse (s : State) (t : Instant) (wellSpaced : Bool) : State :=
  let marked := s.time.markedAt t
  let noted := s.modTime fun b => { b.notePulse t true with previous := some t, qualification := b.qualify wellSpaced }
  let locked := s.time.ref == .locked
  let ticked := if locked then noted.pulseTick else noted
  if marked then ticked.markPulse locked else ticked

/-- A frame pulse measured against the previous accepted one (R18). -/
def State.framePulse (s : State) (t : Instant) : State :=
  match s.time.spacing t with
  | .tooClose => s.modTime fun b => b.notePulse t false
  | .wellSpaced => s.acceptPulse t true
  | .accepted => s.acceptPulse t false

/-! ### The missing-pulse watchdog (R20) -/

/-- The air time of the tick taken for the last accepted frame pulse; where none was ever taken it is a free value (R20; log entry
5). -/
def State.lastPulseTick (s : State) : AirTime := s.time.pulseTick.getD (Config.lastPulseTick s.free)

/-- The watchdog runs out at an instant (R18, R20). -/
def State.missPulse (s : State) (t : Instant) : State :=
  let stopped := s.modTime fun b => { b with previous := none, qualification := 0 }
  if s.time.ref = .locked then
    let written := ((stopped.createNow none (.referenceLost s.lastPulseTick)).raiseBoth .time).useFree 1
    (written.modTime fun b =>
      { b with ref := .holdover, holdoverTicks := 0, oscillator := some (t + oscillatorPeriod) }).tick
  else stopped

/-- The instant the watchdog runs out, while it runs (R18). -/
def TimeBase.watchdog (b : TimeBase) : Option Instant := b.previous.map fun p => p + ms 60

/-- A watchdog that ran out before an instant takes its effect first (log entry 12). -/
def State.settleWatchdog (s : State) (t : Instant) : State :=
  match s.time.watchdog with
  | some w => if w < t then s.missPulse w else s
  | none => s

/-- FRAME_PULSE: a frame pulse of the station reference (R18, R19). -/
def execFramePulse (t : Instant) (s : State) : Host.Outcome State Fault Refusal :=
  when s.powered ((s.settleWatchdog t).framePulse t) s

/-- The latest frame pulse that a second pulse at an instant marks, if it came within 2 ms before (R18). -/
def TimeBase.pairedPulse (b : TimeBase) (t : Instant) : Option PulseRecord :=
  b.lastPulse.filter fun p => decide (t ≤ p.time + ms 2) && !p.marked

/-- A second pulse: it marks the frame pulse within 2 ms before it, or waits for one within 2 ms after it (R18). -/
def State.secondPulse (s : State) (t : Instant) : State :=
  match s.time.pairedPulse t with
  | some p =>
    let marked := s.modTime fun b => { b with lastPulse := some { p with marked := true }, lastSecond := none }
    if p.accepted then marked.markPulse p.ticked else marked
  | none => s.modTime fun b => { b with lastSecond := some t }

/-- SECOND_PULSE: a second pulse of the station reference (R18). -/
def execSecondPulse (t : Instant) (s : State) : Host.Outcome State Fault Refusal := when s.powered (s.secondPulse t) s

/-- MISSING_PULSE: the watchdog runs out (R18, R20). -/
def execMissingPulse (s : State) : Host.Outcome State Fault Refusal :=
  match s.time.watchdog with
  | some w => when s.powered (s.missPulse w) s
  | none => idle s

/-! ### The local oscillator (R17, R24) -/

/-- An expiry of the local oscillator: a tick, and where it brings the frame to 0 a pending set applies (R17, R24). -/
def State.expire (s : State) (t : Instant) : State :=
  let ticked := (s.modTime fun b => { b with oscillator := some (t + oscillatorPeriod) }).tick
  match ticked.time.pendingSet with
  | some p => if ticked.time.air.frame = 0 then ticked.applySet p else ticked
  | none => ticked

/-- LOCAL_OSCILLATOR_EXPIRY: the local oscillator expires while it runs (R17). -/
def execLocalOscillatorExpiry (s : State) : Host.Outcome State Fault Refusal :=
  match s.time.oscillator with
  | some t => when s.powered (s.expire t) s
  | none => idle s

/-! ### TIME-SET (R23) -/

/-- TIME-SET (R23). -/
def setTime (l : Link) (r : Request) (s : State) : State :=
  withArgs l r (readTimeSet r.body) s fun seconds =>
    if s.time.pendingSet.isSome then s.answer l r .busy .none
    else s.modTime fun b => { b with pendingSet := some { seconds := seconds, link := l, tag := r.tag } }

/-- TIME_SET: TIME-SET at the head of a link's request queue is carried out; only the time authority may make it (R23, R163). -/
def execTimeSet (l : Link) (s : State) : Host.Outcome State Fault Refusal :=
  serve l 6 (l = s.settings.timeAuthority) (setTime l) s

end Sys2Proof.Machine
end

