-- ==== Sys2Proof/Machine/Dispatch.lean ====
section
/-! DEFINITION. The command dispatch: one arm per command, each a direct call of its meaning. -/

namespace Sys2Proof.Machine

/-- A command's effect on everything but the queue of commands. -/
def exec (i : Instr) (s : State) : Host.Outcome State Fault Refusal :=
  match i with
  | .airFrameArrival o bytes => Sys2Proof.Machine.execAirFrameArrival o bytes s
  | .airBytesUndelimited o bytes => Sys2Proof.Machine.execAirBytesUndelimited o bytes s
  | .gapOpen o => Sys2Proof.Machine.execGapOpen o s
  | .excursion o l stamp => Sys2Proof.Machine.execExcursion o l stamp s
  | .recordTake o => Sys2Proof.Machine.execRecordTake o s
  | .framePulse t => Sys2Proof.Machine.execFramePulse t s
  | .secondPulse t => Sys2Proof.Machine.execSecondPulse t s
  | .missingPulse => Sys2Proof.Machine.execMissingPulse s
  | .localOscillatorExpiry => Sys2Proof.Machine.execLocalOscillatorExpiry s
  | .returnLost o => Sys2Proof.Machine.execReturnLost o s
  | .cueEdge k t => Sys2Proof.Machine.execCueEdge k t s
  | .messageReceived l bytes => Sys2Proof.Machine.execMessageReceived l bytes s
  | .linkBytesUndelimited l bytes => Sys2Proof.Machine.execLinkBytesUndelimited l bytes s
  | .responseSent l => Sys2Proof.Machine.execResponseSent l s
  | .segDeclare l => Sys2Proof.Machine.execSegDeclare l s
  | .segWithdraw l => Sys2Proof.Machine.execSegWithdraw l s
  | .segTake l => Sys2Proof.Machine.execSegTake l s
  | .segEnd l => Sys2Proof.Machine.execSegEnd l s
  | .segList l => Sys2Proof.Machine.execSegList l s
  | .timeSet l => Sys2Proof.Machine.execTimeSet l s
  | .cueRead l => Sys2Proof.Machine.execCueRead l s
  | .profileStage l => Sys2Proof.Machine.execProfileStage l s
  | .profileRead l => Sys2Proof.Machine.execProfileRead l s
  | .pageList l => Sys2Proof.Machine.execPageList l s
  | .pageRead l => Sys2Proof.Machine.execPageRead l s
  | .pageRelease l => Sys2Proof.Machine.execPageRelease l s
  | .holdPlace l => Sys2Proof.Machine.execHoldPlace l s
  | .holdRelease l => Sys2Proof.Machine.execHoldRelease l s
  | .holdList l => Sys2Proof.Machine.execHoldList l s
  | .evidRead l => Sys2Proof.Machine.execEvidRead l s
  | .evidAck l => Sys2Proof.Machine.execEvidAck l s
  | .settingsSave l => Sys2Proof.Machine.execSettingsSave l s
  | .restart l => Sys2Proof.Machine.execRestart l s
  | .status l => Sys2Proof.Machine.execStatus l s
  | .meterRead l => Sys2Proof.Machine.execMeterRead l s
  | .flagsRead l => Sys2Proof.Machine.execFlagsRead l s
  | .flagsClear l => Sys2Proof.Machine.execFlagsClear l s
  | .maskSet l => Sys2Proof.Machine.execMaskSet l s
  | .linkReset l => Sys2Proof.Machine.execLinkReset l s
  | .linkResetLineRise l => Sys2Proof.Machine.execLinkResetLineRise l s
  | .linkResetLineFall l => Sys2Proof.Machine.execLinkResetLineFall l s
  | .arbiterGrant => Sys2Proof.Machine.execArbiterGrant s
  | .recordWriteComplete => Sys2Proof.Machine.execRecordWriteComplete s
  | .deferredReadTimeout l => Sys2Proof.Machine.execDeferredReadTimeout l s
  | .evidenceBurstComplete => Sys2Proof.Machine.execEvidenceBurstComplete s
  | .pageReadFetchComplete => Sys2Proof.Machine.execPageReadFetchComplete s
  | .evidReadFetchComplete => Sys2Proof.Machine.execEvidReadFetchComplete s
  | .powerOn t => Sys2Proof.Machine.execPowerOn t s
  | .settingsLoadComplete => Sys2Proof.Machine.execSettingsLoadComplete s
  | .settingsSaveComplete => Sys2Proof.Machine.execSettingsSaveComplete s
  | .powerLoss => Sys2Proof.Machine.execPowerLoss s
  | .unknownRequestCode l => Sys2Proof.Machine.execUnknownRequestCode l s
  | .recordBurstComplete => Sys2Proof.Machine.execRecordBurstComplete s

end Sys2Proof.Machine
end

