-- ==== Sys2Proof/Safety.lean ====
section
/-! DEFINITION. What counts as a safe state and a safe step, and the words in which claims about the machine are stated. -/

namespace Sys2Proof.Machine

/-! ### Laws of the state -/

/-- Record memory and the Page Directory are in their canonical forms. -/
abbrev StoresCanonical (s : State) : Prop := memoryWf s.memory = true ∧ directoryWf s.directory = true

/-- Is a flag in a flag set? -/
def FlagSet.has (f : FlagSet) : Flag → Bool
  | .verdict => f.verdict
  | .breach => f.breach
  | .record => f.record
  | .time => f.time
  | .queueEmpty => f.queueEmpty
  | .cue => f.cue
  | .linkError => f.linkError
  | .settings => f.settings

/-- An attention line is asserted while a flag, or the EVIDENCE condition, is both present and in its link's mask, and while the
link's reset line is not asserted (R171, R173). -/
def AttentionRight (s : State) : Prop :=
  ∀ l : Link, (s.link l).attention = true ↔
    (s.link l).resetLine = false ∧
      ((∃ x : Flag, (s.link l).flags.has x = true ∧ (s.link l).mask.flags.has x = true) ∨
        ((s.link l).mask.evidence = true ∧ s.evidence.condition l = true))

/-- The tables and queues keep within their sizes, and no more reads are given up than wait (R32, R135, R150, R162, R166, R173). -/
def WithinBounds (s : State) : Prop :=
  (∀ l : Link, (s.link l).outstanding.length ≤ 8 ∧ (s.link l).deferred.length ≤ 4 ∧
    (s.link l).givenUp ≤ (s.link l).fetches.length) ∧ s.evidence.fifo.length ≤ 64 ∧
    s.holds.length ≤ 32 ∧ ∀ o : OutletId, (s.outlet o).sched.queue.length ≤ 16

/-- An outlet has a current segment exactly in ACTIVE and LOST, a break is open only while the current segment is COMMERCIAL, PROMO
or JUNCTION, and every outlet is OFF during loading and while a restart waits for a burst (R1, R32, R53). -/
def OutletLaws (s : State) : Prop :=
  (∀ o : OutletId, (s.current o).isSome = true ↔
    ((s.outlet o).intake.state = .active ∨ (s.outlet o).intake.state = .lost)) ∧
  (∀ (o : OutletId) (b : BreakRecord), (s.outlet o).sched.brk = some b →
    ∃ c : Current, s.current o = some c ∧ (c.decl.kind = .commercial ∨ c.decl.kind = .promo ∨ c.decl.kind = .junction)) ∧
  ((s.loading = true ∨ s.restarting.isSome = true) → ∀ o : OutletId, (s.outlet o).intake.state = .off) ∧
  (s.loading = true → s.restarting = none)

/-- No segment id other than 0 appears twice among an outlet's pending, armed and current segments (R32). -/
def SegmentIdsUnique (s : State) : Prop :=
  ∀ o : OutletId, ((s.outlet o).sched.ids.filter fun id => id != 0).Nodup

/-- What is measured of an outlet's current segment follows its frames: its frame count saturates at 16,777,215, every frame is seen
by the Subtitle Checker and gives 1920 samples, so that F is floor(2N/5), and, until the count saturates, F − 3 gating blocks stand
in the histogram or under range (R33, R59, R63, R65, R66, R81, R85). With no current segment the sample accumulator is empty and the
gap timer stopped (R61, R91). -/
def MeasurementLaws (s : State) : Prop :=
  ∀ o : OutletId,
    let e := (s.outlet o).loud
    let b := (s.outlet o).subs
    e.history.length ≤ 30 ∧ e.gathered < 4800 ∧ (b.gap.isSome = true → b.timer = .expired) ∧
    (s.current o = none → e.gathered = 0 ∧ b.timer = .stopped ∧ b.gap = none ∧ b.record = none) ∧
    ∀ c : Current, s.current o = some c →
      ∃ (g : SegLoud) (k : SubRecord), e.seg = some g ∧ b.record = some k ∧
        c.frameCount ≤ 16777215 ∧ k.framesSeen = c.frameCount ∧ k.covered ≤ k.framesSeen ∧ g.record.bins.length = 820 ∧
        g.window.length = min 4 g.full ∧
        (c.frameCount < 16777215 →
          4800 * g.full + e.gathered = 1920 * c.frameCount ∧ g.record.bins.sum + g.record.underRange = g.full - 3 ∧
            g.record.gatingCount = g.full - 3)

/-- The images held are valid (R176). -/
def ImagesValid (s : State) : Prop :=
  s.settings.refusal = none ∧ s.imageCopy.refusal = none ∧ ∀ v : Save, s.save = some v → v.image.refusal = none

/-- Every frame record waiting fits a page; a placed record is the head of its FIFO and lies in a page of its outlet's ring, with
the bytes written and the burst in progress no more than it has (R112, R119, R122). An evidence burst in progress ends within its
region (R152). During loading no writer holds anything, and no evidence burst is in progress. -/
def RecordsInPlace (s : State) : Prop :=
  (∀ (o : OutletId) (r : FrameRecord), FifoItem.record r ∈ (s.outlet o).writer.fifo → r.bytes.length ≤ pageSize) ∧
  (∀ (o : OutletId) (p : Placed), (s.outlet o).writer.placed = some p →
    ∃ (r : FrameRecord) (rest : List FifoItem), (s.outlet o).writer.fifo = .record r :: rest ∧
      (s.outletSettings o).owns p.page = true ∧ p.offset + r.bytes.length ≤ pageSize ∧ p.written ≤ r.bytes.length) ∧
  (∀ (o : OutletId) (n : Nat) (last : Bool), s.port = some (.record o n last) →
    ∃ (p : Placed) (r : FrameRecord), (s.outlet o).writer.inProgress = some (p, r) ∧ p.written + n ≤ r.bytes.length) ∧
  (∀ n : Nat, s.port = some (.evidence n) → s.loading = false ∧ s.slot s.evidence.head + n ≤ s.capacity) ∧
  (s.loading = true → ∀ o : OutletId, (s.outlet o).writer.fifo = [] ∧ (s.outlet o).writer.placed = none)

/-- A state from which no write to record memory leaves it. -/
def WritesInMemory (s : State) : Prop := OutletLaws s ∧ ImagesValid s ∧ RecordsInPlace s

/-- A safe step: it neither faults nor is refused. -/
def SafeStep (s : State) : Prop := ∃ t : State, step s = .next t

/-! ### Words for claims -/

/-- The air time one frame later (R16). -/
def nextFrame (a : AirTime) : AirTime :=
  if a.frame.val = 24 then { seconds := a.seconds + 1, frame := 0 } else { seconds := a.seconds, frame := a.frame + 1 }

/-- The byte that carries an outlet (R183). -/
abbrev outletByte (o : OutletId) : Byte := BitVec.ofNat 8 o.val

/-- A request that its link carries out next, with power on (R164). -/
abbrev Waits (s : State) (l : Link) (r : Request) : Prop :=
  s.powered = true ∧ (s.link l).held = none ∧ (s.link l).requests.head? = some r

/-- A request of a code that its link carries out next, once loading is complete (R163, R164). -/
abbrev Serving (s : State) (l : Link) (code : Byte) (r : Request) : Prop := Waits s l r ∧ s.loading = false ∧ r.code = code

/-- A port whose head request has been taken and answered (R163, R165). -/
def LinkPort.answered (p : LinkPort) (r : Request) (status : Status) (body : Body) : LinkPort :=
  { p with requests := p.requests.tail, outstanding := p.outstanding.erase r.tag,
           responses := p.responses ++ [{ tag := r.tag, code := r.code, status := status, body := body }] }

/-- The state in which a link's head request has been taken and answered, nothing else changed (R163, R165). -/
def State.answered (s : State) (l : Link) (r : Request) (status : Status) (body : Body) : State :=
  { s with links := s.links.modify (fun p => p.answered r status body) l }

/-- The link and the code of the request that a command carries out (R163, R187). -/
def requestOf : Instr → Option (Link × Byte)
  | .segDeclare l => some (l, 1)
  | .segWithdraw l => some (l, 2)
  | .segTake l => some (l, 3)
  | .segEnd l => some (l, 4)
  | .segList l => some (l, 5)
  | .timeSet l => some (l, 6)
  | .cueRead l => some (l, 7)
  | .profileStage l => some (l, 8)
  | .profileRead l => some (l, 9)
  | .pageList l => some (l, 10)
  | .pageRead l => some (l, 11)
  | .pageRelease l => some (l, 12)
  | .holdPlace l => some (l, 13)
  | .holdRelease l => some (l, 14)
  | .holdList l => some (l, 15)
  | .evidRead l => some (l, 16)
  | .evidAck l => some (l, 17)
  | .settingsSave l => some (l, 18)
  | .restart l => some (l, 19)
  | .status l => some (l, 20)
  | .meterRead l => some (l, 21)
  | .flagsRead l => some (l, 22)
  | .flagsClear l => some (l, 23)
  | .maskSet l => some (l, 24)
  | .linkReset l => some (l, 25)
  | _ => none

/-- May a link make a request of a code (R163)? -/
def mayMake (authority l : Link) (code : Byte) : Bool :=
  if code.toNat ∈ [1, 2, 3, 4] then l == .automation
  else if code.toNat ∈ [8, 10, 11, 12, 13, 14, 17, 18, 19] then l == .compliance
  else if code.toNat = 6 then l == authority
  else true

/-- Does a request's body fit its link and code (R161, R188)? SETTINGS-SAVE has its own answer to an image that does not (R179). -/
def fitsCode (l : Link) (code : Byte) (body : Bytes) : Bool :=
  match code.toNat with
  | 1 => (readSegDeclare body).isSome
  | 2 => (readSegWithdraw body).isSome
  | 3 => (readOutlet body).isSome
  | 4 => (readOutlet body).isSome
  | 5 => (readOutlet body).isSome
  | 6 => (readTimeSet body).isSome
  | 7 => (readCueRead body).isSome
  | 8 => (readProfileStage body).isSome
  | 10 => (readPageList body).isSome
  | 11 => (readPageRead body).isSome
  | 12 => (readPageRelease body).isSome
  | 13 => (readHoldPlace body).isSome
  | 14 => (readHoldRelease body).isSome
  | 16 => (readEvidRead l body).isSome
  | 17 => (readEvidAck body).isSome
  | 18 => true
  | 19 => (readRestart body).isSome
  | 21 => (readOutlet body).isSome
  | 23 => (readFlagsClear body).isSome
  | 24 => (readMaskSet body).isSome
  | _ => body.isEmpty

/-- The memory read that a deferred entry becomes at a report of its page's fill or close; none where no byte of it lies below the
fill (R167). -/
def deferredFetch (page fill : Nat) (closing : Bool) (d : Deferred) : Option Fetch :=
  if d.offset + d.length ≤ fill then some (.page d.tag d.outlet d.sequence page d.offset d.length closing)
  else if d.offset < fill then some (.page d.tag d.outlet d.sequence page d.offset (fill - d.offset) true)
  else none

/-- A frame tick as Return Intake, the Subtitle Checker and the Link Ports take it: an ACTIVE outlet's loss timer runs, and at 3 the
outlet is LOST; a LOST outlet counts the tick and its gap timer runs; an outlet in OFF or WAITING, the loudness and the writers are
as they were; every deferred read ages, and leaves its table at 50 (R12, R13, R16, R84, R86, R166, R167). -/
def TickReported (s u : State) : Prop :=
  (∀ o : OutletId,
    let i := (s.outlet o).intake
    let gap := s.passGap o (nextFrame s.time.air) none
    (u.outlet o).intake =
      (match i.state with
       | .off => i
       | .waiting => i
       | .active =>
         if 2 ≤ i.lossTimer then { i with state := .lost, expected := none, lossTimer := i.lossTimer + 1, lostTicks := 0 }
         else { i with lossTimer := i.lossTimer + 1 }
       | .lost => { i with lostTicks := min 4294967295 (i.lostTicks + 1) }) ∧
    (u.outlet o).subs = (if i.state = .lost then (gap.outlet o).subs else (s.outlet o).subs) ∧
    (u.outlet o).verdict = (if i.state = .lost then (gap.outlet o).verdict else (s.outlet o).verdict) ∧
    (u.outlet o).loud = (s.outlet o).loud ∧ (u.outlet o).writer = (s.outlet o).writer) ∧
  ∀ l : Link, (u.link l).deferred =
    ((s.link l).deferred.map fun d => { d with age := d.age + 1 }).filter fun d => decide (d.age < 50)

/-- A frame tick as the Scheduler takes it: the current segment of a LOST outlet counts it, and a TIMED head that is due after it is
armed, late where its start time is past, or takes a waiting trigger behind an occupied slot (R13, R39, R40). -/
def TickScheduled (s u : State) : Prop :=
  ∀ o : OutletId,
    let air := nextFrame s.time.air
    let q := (s.outlet o).sched
    let counted :=
      if (s.outlet o).intake.state = .lost then
        { q with current := q.current.map fun c => { c with lostTicks := min 4294967295 (c.lostTicks + 1) } }
      else q
    (∀ (d : Declaration) (rest : List Declaration) (a : AirTime), q.queue = d :: rest → d.start = some (.timed a) →
      a.frames ≤ air.frames →
      (q.armed = none → (u.outlet o).sched =
        { counted with
          queue := rest
          waiting := none
          armed := some
            { decl := d, boundary := .stamp (a.add (s.outletSettings o).returnDelay), cause := .timed, armStamp := air,
              lateStart := decide (a.frames < air.frames) } }) ∧
      (q.armed.isSome = true → (u.outlet o).sched = { counted with waiting := some .timed })) ∧
    ((∀ (d : Declaration) (a : AirTime), q.queue.head? = some d → d.start = some (.timed a) → air.frames < a.frames) →
      (u.outlet o).sched = counted)

/-- The records that a frame tick brings, in the order of the outlets: RETURN_LOST of the outlets it takes to LOST, and LATE_START
of the heads it arms past their start time (R12, R40). -/
def tickDrafts (s : State) : List Draft :=
  let air := nextFrame s.time.air
  (List.finRange 8).filterMap (fun o =>
    let i := (s.outlet o).intake
    if i.state = .active ∧ 2 ≤ i.lossTimer then
      some
        { outlet := some o, stamp := air,
          body := .returnLost (i.lastArrival.map Prod.fst) (i.lastArrival.map Prod.snd)
            (((s.current o).map fun c => c.decl.id).getD 0) }
    else none) ++
  (List.finRange 8).filterMap fun o =>
    match (s.outlet o).sched.queue.head?, (s.outlet o).sched.armed with
    | some d, none =>
      match d.start with
      | some (.timed a) =>
        if a.frames < air.frames then
          some { outlet := some o, stamp := air, body := .lateStart d.id a (air.frames - a.frames) .lateDeclare }
        else none
      | _ => none
    | _, _ => none

/-- Does a frame tick open the gap of a LOST outlet and make its breach line rise (R85, R109)? -/
def TickBreach (s : State) : Prop :=
  ∃ (o : OutletId) (n : Nat), (s.outlet o).intake.state = .lost ∧ (s.outlet o).subs.gap = none ∧
    (s.outlet o).subs.timer = .running n ∧ n ≤ 1 ∧ (s.outlet o).verdict.line = false

/-- A record was handed over, among whatever others, and nothing else befell the evidence. -/
def Told (s u : State) (d : Draft) : Prop :=
  ∃ records : List Draft, u.evidence = records.foldl Evidence.create s.evidence ∧ d ∈ records

/-- A pending set applied at its second boundary, from the air time `old` that the boundary's tick left: air time S:0, TIME_STEP
with cause SET, TIME on both links, every current segment marked TIME_STEP_SEEN, the reference state `ref`, the set cleared and
answered OK with both air times and that state (R22, R24). -/
def SetApplied (s u : State) (x : PendingSet) (old : AirTime) (ref : RefState) : Prop :=
  let new : AirTime := { seconds := x.seconds, frame := 0 }
  u.time.air = new ∧ u.time.ref = ref ∧ u.time.pendingSet = none ∧ (∀ l : Link, (u.link l).flags.time = true) ∧
    Told s u { outlet := none, stamp := new, body := .timeStep .set old new ((new.frames : Int) - old.frames) ref } ∧
    (∀ (o : OutletId) (c : Current), u.current o = some c → c.timeStepSeen = true) ∧
    (u.link x.link).responses.getLast? = some { tag := x.tag, code := 6, status := .ok, body := .timeSet old new ref }

/-- What every frame tick may change: the outlets, the ports, the evidence and the Time Base. Everything else is as it was. -/
abbrev TickFrame (s t : State) : Prop :=
  { t with time := s.time, outlets := s.outlets, links := s.links, evidence := s.evidence, free := s.free } = s

/-- A lock in HOLDOVER: the oscillator stops, one tick is taken, air time goes to the nearest whole second, with TIME_STEP of cause
LOCK where that changes it, or a pending set is applied in place of the rounding; then LOCKED, REFERENCE_RESTORED with the HOLDOVER
ticks and the step made, and TIME on both links (R21, R24). -/
def LockTaken (s u : State) : Prop :=
  let old := nextFrame s.time.air
  let new : AirTime :=
    match s.time.pendingSet with
    | some x => { seconds := x.seconds, frame := 0 }
    | none => { seconds := if 13 ≤ old.frame.val then old.seconds + 1 else old.seconds, frame := 0 }
  let step : Int := (new.frames : Int) - old.frames
  u.time.air = new ∧ u.time.ref = .locked ∧ u.time.oscillator = none ∧ u.time.pendingSet = none ∧
    (∀ l : Link, (u.link l).flags.time = true) ∧
    Told s u { outlet := none, stamp := new, body := .referenceRestored (min 4294967295 (s.time.holdoverTicks + 1)) step } ∧
    (s.time.pendingSet = none → new ≠ old →
      Told s u { outlet := none, stamp := new, body := .timeStep .lock old new step .locked }) ∧
    (∀ x : PendingSet, s.time.pendingSet = some x → SetApplied s u x old .locked) ∧ TickFrame s u ∧ TickReported s u

end Sys2Proof.Machine
end

