-- ==== Sys2Proof/Certificates/Slice0/Obligations.lean ====
section
/-! DEFINITION. The statements for the provers. A statement about a command says what `exec` answers; where the result is written
out with `refresh`, that is the attention lines evaluated afresh, of which `Obligations.AttentionKept` speaks. -/

open Sys2Proof Sys2Proof.Machine

/-! ### The machine -/

/-- A step carries out the command at the front of the queue on the state with the queue's rest; that the block idles on an empty
queue is the model's choice (log entry 14). -/
def Obligations.StepTakesFrontCommand : Prop :=
  (∀ (c : Instr) (rest : List Instr) (s : State), s.pending = c :: rest → step s = exec c { s with pending := rest }) ∧
  ∀ s : State, s.pending = [] → step s = .next s

/-- No step is refused, and a step faults only at a grant to a writer whose burst would reach past the end of record memory (the
fault itself is the model's: log entry 27). -/
def Obligations.StepFaultsOnlyPastMemory : Prop :=
  ∀ s : State, (∀ r : Refusal, step s ≠ .refused r) ∧
    ∀ f : Fault, step s = .fault f →
      ∃ (rest : List Instr) (d : Decision) (o : OutletId) (p : Placed) (r : FrameRecord),
        s.pending = .arbiterGrant :: rest ∧ s.decision = some d ∧ d.granted = .writer o ∧
          (s.outlet o).writer.inProgress = some (p, r) ∧ s.memorySize < p.address + burstOf p r

/-- Every step keeps each attention line as R171 and R173 give it; that a LINK-RESET request, which deasserts it, evaluates it again
at once is the model's reading (log entry 19). -/
def Obligations.AttentionKept : Prop := ∀ s t : State, AttentionRight s → step s = .next t → AttentionRight t

/-- Every step keeps record memory and the Page Directory in their canonical forms. -/
def Obligations.StoresKept : Prop := ∀ s t : State, StoresCanonical s → step s = .next t → StoresCanonical t

/-- Every step keeps at most 8 outstanding requests and 4 deferred reads on a link, no more reads given up than its fetch queue
holds, 64 records in the evidence FIFO, 32 holds and 16 pending segments on an outlet. -/
def Obligations.BoundsKept : Prop := ∀ s t : State, WithinBounds s → step s = .next t → WithinBounds t

/-- Every step keeps the outlet laws: a current segment exactly in ACTIVE and LOST, an open break only under a COMMERCIAL, PROMO or
JUNCTION segment, and every outlet OFF during loading and while a restart waits. -/
def Obligations.OutletLawsKept : Prop := ∀ s t : State, OutletLaws s → step s = .next t → OutletLaws t

/-- Every step keeps the segment ids of each outlet unique. -/
def Obligations.SegmentIdsKept : Prop := ∀ s t : State, SegmentIdsUnique s → step s = .next t → SegmentIdsUnique t

/-- Every step keeps what is measured in step with the frames: F is floor(2N/5) after N frames, F − 3 gating blocks are counted, and
the Subtitle Checker has seen N frames. -/
def Obligations.MeasurementKept : Prop :=
  ∀ s t : State, OutletLaws s → MeasurementLaws s → step s = .next t → MeasurementLaws t

/-- From a state whose records lie in their pages, and whose evidence burst lies in its region, under valid images, every step
answers a next state of the same kind: no write of a frame record leaves its page, and none of an evidence burst the evidence
region. -/
def Obligations.RecordWritesStayInMemory : Prop :=
  ∀ s : State, WritesInMemory s → SafeStep s ∧ ∀ t : State, step s = .next t → WritesInMemory t

/-- The state after reset meets every law that the steps keep. -/
def Obligations.ResetMeetsLaws : Prop :=
  AttentionRight State.reset ∧ StoresCanonical State.reset ∧ WithinBounds State.reset ∧ SegmentIdsUnique State.reset ∧
    MeasurementLaws State.reset ∧ WritesInMemory State.reset

/-! ### Air returns (chapter 1) -/

/-- A frame that arrives on an outlet that is OFF is discarded with no effect, and so are bytes that make no frame. An arrival on an
outlet that is not OFF takes the port's number, sets the expected sequence, resets the loss timer and makes the outlet ACTIVE; where
it restores a LOST outlet, RETURN_RESTORED is the first record it brings (first among those of other blocks by the model's choice:
log entry 4). -/
def Obligations.ArrivalNumbered : Prop :=
  (∀ (s : State) (o : OutletId) (bytes : Bytes),
    ((s.outlet o).intake.state = .off → exec (.airFrameArrival o bytes) s = .next s) ∧
      exec (.airBytesUndelimited o bytes) s = .next s) ∧
  ∀ (s : State) (o : OutletId) (bytes : Bytes), s.powered = true → (s.outlet o).intake.state ≠ .off →
    ∃ t : State, exec (.airFrameArrival o bytes) s = .next t ∧
      (t.outlet o).intake =
        { state := .active, rfn := (s.outlet o).intake.rfn + 1,
          expected :=
            match readFrame bytes with
            | some f => some (f.sequence + 1)
            | none => (s.outlet o).intake.expected.map fun e => e + 1
          lossTimer := 0, lostTicks := (s.outlet o).intake.lostTicks,
          lastArrival := some (s.time.air, (s.outlet o).intake.rfn) } ∧
      ((s.outlet o).intake.state = .lost → s.evidence.fifo.length < 64 →
        ∃ more : List EvidenceRecord, t.evidence.fifo = s.evidence.fifo ++
          { draft :=
              { outlet := some o, stamp := s.time.air,
                body := .returnRestored (s.outlet o).intake.rfn (s.outlet o).intake.lostTicks }
            sequence := s.evidence.sequence, lossBefore := s.evidence.lossPending } :: more)

/-- An arrival on one port touches no state of another port's outlet, nothing of the ports of the links but their flags and
attention lines, nothing of a directory entry but its hold count, and beyond these only the holds and the evidence. -/
def Obligations.PortsIndependent : Prop :=
  ∀ (s t : State) (o : OutletId) (bytes : Bytes), exec (.airFrameArrival o bytes) s = .next t →
    (∀ p : OutletId, p ≠ o → t.outlet p = s.outlet p) ∧
    (∀ l : Link, { t.link l with flags := (s.link l).flags, attention := (s.link l).attention } = s.link l) ∧
    (∀ n : Nat, { pageAt t.directory n with holdCount := (pageAt s.directory n).holdCount } = pageAt s.directory n) ∧
    { t with outlets := s.outlets, directory := s.directory, holds := s.holds, holdCounter := s.holdCounter,
             evidence := s.evidence, links := s.links, free := s.free } = s

/-- A frame of an ACTIVE or LOST outlet that is no boundary is counted into the current segment; a FOLLOW head that the count makes
due is armed with NEXT_FRAME, or takes a waiting trigger behind an occupied slot, and otherwise slot and queue stay; then overrun is
tested. -/
def Obligations.ArrivalCountsFrame : Prop :=
  ∀ (s : State) (o : OutletId) (bytes : Bytes) (c : Current), s.powered = true →
    ((s.outlet o).intake.state = .active ∨ (s.outlet o).intake.state = .lost) → s.current o = some c →
    (∀ m : Armed, (s.outlet o).sched.armed = some m → m.boundary.met s.time.air = false) →
    let count := min 16777215 (c.frameCount + 1)
    let due := c.decl.duration ≠ 0 ∧ c.decl.duration + (s.profileOf c.version).overrunGrace ≤ count
    let absent : Bool :=
      match readFrame bytes with
      | some f => decide (f.layout = .none ∨ f.sampleCount = 0)
      | none => true
    ∃ t : State, exec (.airFrameArrival o bytes) s = .next t ∧
      t.current o = some
        { c with
          frameCount := count
          holdoverSeen := c.holdoverSeen || s.time.ref != .locked
          absentFrames := if absent then min 16777215 (c.absentFrames + 1) else c.absentFrames
          lastStamp := s.time.air
          lastRfn := (s.outlet o).intake.rfn
          overrun := c.overrun || decide (due ∧ (t.outlet o).sched.armed = none ∧ c.overrunReported = false)
          overrunReported := c.overrunReported || decide (due ∧ (t.outlet o).sched.armed = none) } ∧
      (let q := (s.outlet o).sched
       let reached : Prop := c.decl.duration ≠ 0 ∧ c.decl.duration ≤ count
       (∀ (d : Declaration) (rest : List Declaration), q.queue = d :: rest → d.start = some .follow → reached →
          (q.armed = none →
            (t.outlet o).sched.armed = some
              { decl := d, boundary := .nextFrame, cause := .follow, armStamp := s.time.air, lateStart := false } ∧
            (t.outlet o).sched.queue = rest ∧ (t.outlet o).sched.waiting = none) ∧
          (q.armed.isSome = true →
            (t.outlet o).sched.armed = q.armed ∧ (t.outlet o).sched.queue = q.queue ∧
            (t.outlet o).sched.waiting = some .follow)) ∧
        ((∀ d : Declaration, q.queue.head? = some d → d.start = some .follow → ¬reached) →
          (t.outlet o).sched.armed = q.armed ∧ (t.outlet o).sched.queue = q.queue ∧
          (t.outlet o).sched.waiting = q.waiting))

/-- At a boundary the armed segment becomes current at its first frame and the closed segment's verdict is delivered; the first
frame of a WAITING outlet makes the armed segment current where it is due, with no close, and otherwise an UNDECLARED one. Where the
slot empties and the queue is empty, QUEUE_EMPTY is raised on both links. -/
def Obligations.BoundaryAndFirstFrame : Prop :=
  ∀ (s : State) (o : OutletId) (bytes : Bytes), s.powered = true →
    (∀ (c : Current) (m : Armed), ((s.outlet o).intake.state = .active ∨ (s.outlet o).intake.state = .lost) →
      s.current o = some c → (s.outlet o).sched.armed = some m → m.boundary.met s.time.air = true →
      ∃ (t : State) (n : Current), exec (.airFrameArrival o bytes) s = .next t ∧ t.current o = some n ∧
        n.decl = (if m.decl.kind = .undeclared then s.undeclared else m.decl) ∧ n.startStamp = s.time.air ∧
        n.startRfn = (s.outlet o).intake.rfn ∧ n.frameCount = 1 ∧ n.version = s.latestVersion ∧ n.lateStart = m.lateStart ∧
        n.timeStepSeen = false ∧ n.lostTicks = 0 ∧ (t.outlet o).verdict.segSlot = none ∧
        (∀ l : Link, (t.link l).flags.verdict = true) ∧
        ((s.outlet o).sched.queue = [] →
          (t.outlet o).sched.armed = none ∧ ∀ l : Link, (t.link l).flags.queueEmpty = true)) ∧
    (∀ m : Armed, (s.outlet o).intake.state = .waiting → (s.outlet o).sched.armed = some m → m.boundary.met s.time.air = true →
      ∃ (t : State) (n : Current), exec (.airFrameArrival o bytes) s = .next t ∧ t.current o = some n ∧
        n.decl = (if m.decl.kind = .undeclared then s.undeclared else m.decl) ∧ n.startStamp = s.time.air ∧
        n.startRfn = (s.outlet o).intake.rfn ∧ n.frameCount = 1 ∧ n.version = s.latestVersion ∧ n.lateStart = m.lateStart ∧
        n.timeStepSeen = false ∧ n.lostTicks = 0 ∧
        ((s.outlet o).verdict.segSlot = none → (t.outlet o).verdict.segSlot = none) ∧
        ((s.outlet o).sched.queue = [] →
          (t.outlet o).sched.armed = none ∧ ∀ l : Link, (t.link l).flags.queueEmpty = true)) ∧
    ((s.outlet o).intake.state = .waiting →
      (∀ m : Armed, (s.outlet o).sched.armed = some m → m.boundary.met s.time.air = false) →
      ∃ (t : State) (n : Current), exec (.airFrameArrival o bytes) s = .next t ∧ t.current o = some n ∧
        n.decl =
          { id := 0, kind := .undeclared, cls := s.latestProfile.defaultClass, obligation := s.latestProfile.defaultObligation,
            language := none, start := none, duration := 0 } ∧
        n.startStamp = s.time.air ∧ n.startRfn = (s.outlet o).intake.rfn ∧ n.frameCount = 1 ∧ n.version = s.latestVersion)

/-- What is handed on of an arrival. Of a frame that is not well formed nothing is trusted: zero audio, no units, no proxy, CORRUPT
and the time flag. Of a well-formed one, the audio is brought to 1920 samples per channel, four units are kept with an empty SHOW
made HOLD, 16,384 bytes of proxy are kept, a wrong outlet number is kept and marked, and the frame flags say each of these and
DISCONTINUITY. -/
def Obligations.FrameTreated : Prop :=
  (∀ (o : OutletId) (bytes : Bytes), readFrame bytes = none →
    treat o bytes =
      { corrupt := true, outlet := outletByte o, sequence := 0, layout := .none, samples := [], units := [], proxy := [],
        mismatch := false, absent := false, short := false, long := false, unitsDropped := false, proxyTruncated := false } ∧
    (treat o bytes).audio = List.replicate 1920 (Six.all 0) ∧
    ∀ (expected : Option (BitVec 16)) (ref : RefState), (treat o bytes).flags expected ref =
      if ref = .holdover then 257 else if ref = .unset then 513 else 1) ∧
  ∀ (o : OutletId) (bytes : Bytes) (f : AirFrame), readFrame bytes = some f →
    let r := treat o bytes
    let absent : Prop := f.layout = .none ∨ f.sampleCount = 0
    f.samples.length = f.sampleCount ∧ r.outlet = f.outlet ∧ r.sequence = f.sequence ∧
    r.units = (f.units.take 4).map (fun u => if u.kind = 1 ∧ u.text = [] then { u with kind := 3 } else u) ∧
    r.proxy = f.proxy.take 16384 ∧
    (absent → r.layout = .none ∧ r.samples = [] ∧ r.audio = List.replicate 1920 (Six.all 0)) ∧
    (¬absent → r.layout = f.layout ∧ r.audio = r.samples.map (spread f.layout) ∧
      (f.sampleCount ≤ 1920 →
        r.samples = f.samples ++ List.replicate (1920 - f.sampleCount) (List.replicate (channelsOf f.layout) 0)) ∧
      (1920 < f.sampleCount → r.samples = f.samples.take 1920)) ∧
    ∀ (expected : Option (BitVec 16)) (ref : RefState),
      let flags := r.flags expected ref
      flags.getLsbD 0 = false ∧
      (flags.getLsbD 1 = true ↔ f.outlet ≠ outletByte o) ∧
      (flags.getLsbD 2 = true ↔ ∃ e : BitVec 16, expected = some e ∧ e ≠ f.sequence) ∧
      (flags.getLsbD 3 = true ↔ absent) ∧
      (flags.getLsbD 4 = true ↔ ¬absent ∧ f.sampleCount < 1920) ∧
      (flags.getLsbD 5 = true ↔ ¬absent ∧ 1920 < f.sampleCount) ∧
      (flags.getLsbD 6 = true ↔ 4 < f.units.length) ∧
      (flags.getLsbD 7 = true ↔ 16384 < f.proxy.length) ∧
      (flags.getLsbD 8 = true ↔ ref = .holdover) ∧
      (flags.getLsbD 9 = true ↔ ref = .unset) ∧ flags.toNat < 1024

/-- An ACTIVE outlet whose loss timer stands at 3 goes to LOST with a RETURN_LOST record; the tick that brings the timer to 3 does
so itself (that the command acts on a standing timer only is the model's reading: log entry 10). -/
def Obligations.ReturnLostAtThree : Prop :=
  ∀ (s : State) (o : OutletId), (s.outlet o).intake.state = .active →
    let i := (s.outlet o).intake
    let lost : State := s.modOutlet o fun t =>
      { t with intake := { i with state := .lost, expected := none, lostTicks := 0 } }
    let record : Draft :=
      { outlet := some o, stamp := s.time.air,
        body := .returnLost (i.lastArrival.map Prod.fst) (i.lastArrival.map Prod.snd)
          (((s.current o).map fun c => c.decl.id).getD 0) }
    (s.powered = true → 3 ≤ i.lossTimer → exec (.returnLost o) s = .next (lost.create record).refresh) ∧
    (i.lossTimer = 2 →
      s.tickIntake o = (lost.modOutlet o fun t => { t with intake := { t.intake with lossTimer := 3 } }, [record])) ∧
    (i.lossTimer < 2 →
      s.tickIntake o =
        (s.modOutlet o fun t => { t with intake := { t.intake with lossTimer := t.intake.lossTimer + 1 } }, []))

/-! ### Air time and cue lines (chapter 2) -/

/-- The qualification count after a frame pulse of each spacing, and after a missing pulse; a pulse that is not well spaced does not
leave LOCKED. A pulse later than 60 ms meets a watchdog that ran out before it (log entry 12), and is not spoken of. -/
def Obligations.QualificationCount : Prop :=
  ∀ s : State, s.powered = true →
    (∀ t : Instant, (∀ p : Instant, s.time.previous = some p → t ≤ p + 60000000) →
      ∃ u : State, exec (.framePulse t) s = .next u ∧
        u.time.qualification =
          (match s.time.previous with
           | none => 1
           | some p =>
             if t - p < 38000000 then s.time.qualification
             else if t - p ≤ 42000000 then min 25 (s.time.qualification + 1) else 1) ∧
        (s.time.ref = .locked → u.time.ref = .locked)) ∧
    ∀ p : Instant, s.time.previous = some p →
      ∃ u : State, exec .missingPulse s = .next u ∧ u.time.qualification = 0

/-- A frame pulse less than 38 ms after the previous accepted one is only noted. In LOCKED an accepted one is one tick, reported as
every tick is; where it is marked and a set is pending, the set then applies. In HOLDOVER a marked one with which the count stands
at 25 locks. In UNSET, and in HOLDOVER otherwise, it is counted and is no tick. Which frame pulse a waiting second pulse marks (log
entry 15) and the reference state that TIME_STEP carries (log entry 16) are the model's readings. A pulse later than 60 ms is not
spoken of (log entry 12). -/
def Obligations.FramePulseEffects : Prop :=
  ∀ (s : State) (t : Instant), s.powered = true → (∀ p : Instant, s.time.previous = some p → t ≤ p + 60000000) →
    let marked := ∃ q : Instant, s.time.lastSecond = some q ∧ t ≤ q + 2000000
    let count :=
      match s.time.previous with
      | none => 1
      | some p => if t - p ≤ 42000000 then min 25 (s.time.qualification + 1) else 1
    ((∀ p : Instant, s.time.previous = some p → 38000000 ≤ t - p) →
      (s.time.ref = .locked → (s.time.pendingSet = none ∨ ¬marked) →
        ∃ u : State, exec (.framePulse t) s = .next u ∧ u.time.air = nextFrame s.time.air ∧ u.time.ref = .locked ∧
          u.time.previous = some t ∧ u.time.pulseTick = some (nextFrame s.time.air) ∧ u.time.oscillator = s.time.oscillator ∧
          u.time.holdoverTicks = s.time.holdoverTicks ∧ u.time.pendingSet = s.time.pendingSet ∧ TickFrame s u ∧
          TickReported s u ∧ TickScheduled s u) ∧
      (∀ x : PendingSet, s.time.ref = .locked → marked → s.time.pendingSet = some x →
        ∃ u : State, exec (.framePulse t) s = .next u ∧ u.time.previous = some t ∧
          u.time.pulseTick = some (nextFrame s.time.air) ∧ TickFrame s u ∧ TickReported s u ∧
          SetApplied s u x (nextFrame s.time.air) .locked) ∧
      (s.time.ref = .holdover → marked → count = 25 →
        ∃ u : State, exec (.framePulse t) s = .next u ∧ u.time.previous = some t ∧ u.time.qualification = 25 ∧
          u.time.pulseTick = some (nextFrame s.time.air) ∧ LockTaken s u) ∧
      ((s.time.ref = .unset ∨ s.time.ref = .holdover ∧ (¬marked ∨ count ≠ 25)) →
        ∃ b : TimeBase, exec (.framePulse t) s = .next { s with time := b }.refresh ∧ b.previous = some t ∧
          b.qualification = count ∧
          { b with previous := s.time.previous, qualification := s.time.qualification, lastPulse := s.time.lastPulse,
                   lastSecond := s.time.lastSecond } = s.time)) ∧
    ∀ p : Instant, s.time.previous = some p → t - p < 38000000 →
      ∃ q : PulseRecord, q.time = t ∧ q.accepted = false ∧
        exec (.framePulse t) s = .next { s with time := { s.time with lastPulse := some q, lastSecond := none } }.refresh

/-- A second pulse within 2 ms after a frame pulse marks it. In HOLDOVER, with the count at 25 and the pulse accepted, the mark
locks, a pending set applied in place of the rounding. In LOCKED with a set pending it applies the set: from the tick already taken
for the pulse, or from one taken at the mark. Otherwise the mark has no effect. A second pulse with no frame pulse before it is only
noted. Which frame pulse a second pulse marks (log entry 15) and the reference state that TIME_STEP carries (log entry 16) are the
model's readings. -/
def Obligations.LockAtMark : Prop :=
  ∀ (s : State) (t : Instant), s.powered = true →
    (∀ p : PulseRecord, s.time.lastPulse = some p → p.marked = false → t ≤ p.time + 2000000 →
      (s.time.ref = .holdover → s.time.qualification = 25 → p.accepted = true →
        ∃ u : State, exec (.secondPulse t) s = .next u ∧ u.time.qualification = 25 ∧ u.time.previous = s.time.previous ∧
          u.time.pulseTick = some (nextFrame s.time.air) ∧ LockTaken s u) ∧
      (∀ x : PendingSet, s.time.ref = .locked → s.time.pendingSet = some x → p.accepted = true →
        (p.ticked = false →
          ∃ u : State, exec (.secondPulse t) s = .next u ∧ u.time.previous = s.time.previous ∧
            u.time.pulseTick = some (nextFrame s.time.air) ∧ TickFrame s u ∧ TickReported s u ∧
            SetApplied s u x (nextFrame s.time.air) .locked) ∧
        (p.ticked = true →
          ∃ u : State, exec (.secondPulse t) s = .next u ∧ u.time.previous = s.time.previous ∧
            u.time.pulseTick = s.time.pulseTick ∧ u.time.holdoverTicks = s.time.holdoverTicks ∧ TickFrame s u ∧
            (∀ o : OutletId, { u.outlet o with sched := (s.outlet o).sched } = s.outlet o) ∧
            (∀ l : Link, (u.link l).deferred = (s.link l).deferred) ∧ SetApplied s u x s.time.air .locked)) ∧
      ((p.accepted = false ∨ s.time.ref = .unset ∨ s.time.ref = .holdover ∧ s.time.qualification ≠ 25 ∨
          s.time.ref = .locked ∧ s.time.pendingSet = none) →
        exec (.secondPulse t) s = .next
          { s with time := { s.time with lastPulse := some { p with marked := true }, lastSecond := none } }.refresh)) ∧
    ((∀ p : PulseRecord, s.time.lastPulse = some p → p.time + 2000000 < t) →
      exec (.secondPulse t) s = .next { s with time := { s.time with lastSecond := some t } }.refresh)

/-- A missing pulse in LOCKED: REFERENCE_LOST, TIME on both links, HOLDOVER with the counts at 0, one tick, and the oscillator to
expire 40 ms later. In HOLDOVER and UNSET only the watchdog stops and the qualification count goes to 0. -/
def Obligations.MissingPulseEffects : Prop :=
  ∀ (s : State) (p : Instant), s.powered = true → s.time.previous = some p →
    (s.time.ref = .locked →
      ∃ u : State, exec .missingPulse s = .next u ∧
        u.time =
          { s.time with air := nextFrame s.time.air, ref := .holdover, previous := none, qualification := 0, holdoverTicks := 1,
                        oscillator := some (p + 100000000) } ∧
        (∀ l : Link, (u.link l).flags.time = true) ∧ TickFrame s u ∧ TickReported s u ∧ TickScheduled s u ∧
        ∀ a : AirTime, s.time.pulseTick = some a → s.evidence.fifo.length < 64 →
          ∃ more : List EvidenceRecord, u.evidence.fifo = s.evidence.fifo ++
            { draft := { outlet := none, stamp := s.time.air, body := .referenceLost a }
              sequence := s.evidence.sequence, lossBefore := s.evidence.lossPending } :: more) ∧
    (s.time.ref ≠ .locked →
      exec .missingPulse s = .next { s with time := { s.time with previous := none, qualification := 0 } }.refresh)

/-- An expiry of the local oscillator is one tick, reported to Intake, the Scheduler and the Link Ports, and sets the next expiry 40
ms later: the outlets' timers run, TIMED heads that are due are armed, deferred reads age, and the records RETURN_LOST and
LATE_START are made in some order. Where the tick brings the frame to 0, a pending set applies and is answered OK; where it does
not, the set stays pending. That the set's TIME_STEP carries the reference state the set leaves is the model's reading (log entry
16). -/
def Obligations.OscillatorTick : Prop :=
  ∀ (s : State) (t : Instant), s.powered = true → s.time.oscillator = some t →
    ((s.time.pendingSet = none ∨ s.time.air.frame.val ≠ 24) →
      ∃ u : State, exec .localOscillatorExpiry s = .next u ∧ TickFrame s u ∧ TickReported s u ∧ TickScheduled s u ∧
        (∃ records : List Draft, records.Perm (tickDrafts s) ∧ u.evidence = records.foldl Evidence.create s.evidence) ∧
        (∀ l : Link,
          (∀ x : Flag, (u.link l).flags.has x = true ↔ (s.link l).flags.has x = true ∨ x = .breach ∧ TickBreach s) ∧
          ∃ order : List Deferred, order.Perm ((s.link l).deferred.filter fun d => decide (49 ≤ d.age)) ∧
            u.link l =
              { s.link l with
                deferred := (u.link l).deferred
                outstanding := (order.map Deferred.tag).foldl List.erase (s.link l).outstanding
                responses := (s.link l).responses ++ order.map fun d =>
                  { tag := d.tag, code := 11, status := .notYet,
                    body :=
                      match s.findPage d.outlet d.sequence with
                      | some x => .pageRead [] x.2.state x.2.fill
                      | none => .none }
                flags := (u.link l).flags
                attention := (u.link l).attention }) ∧
        u.time =
          { s.time with
            air := nextFrame s.time.air
            oscillator := some (t + 40000000)
            holdoverTicks :=
              if s.time.ref = .holdover then min 4294967295 (s.time.holdoverTicks + 1) else s.time.holdoverTicks }) ∧
    ∀ p : PendingSet, s.time.pendingSet = some p → s.time.air.frame.val = 24 →
      let ref : RefState :=
        if s.time.ref = .unset then (if s.time.qualification = 25 then .locked else .holdover) else s.time.ref
      ∃ u : State, exec .localOscillatorExpiry s = .next u ∧ TickFrame s u ∧ TickReported s u ∧
        SetApplied s u p (nextFrame s.time.air) ref

/-- TIME-SET: RIGHTS from a link that is not the time authority, BAD_ARG for a body that is not four bytes, BUSY while a set is
pending, and otherwise the set becomes pending with no response, its request outstanding and its link left free. In the default
image the compliance link is the time authority. -/
def Obligations.TimeSetTaken : Prop :=
  defaultImage.timeAuthority = .compliance ∧
  ∀ (s : State) (l : Link) (r : Request), Serving s l 6 r →
    (l ≠ s.settings.timeAuthority → exec (.timeSet l) s = .next (s.answered l r .rights .none).refresh) ∧
    (l = s.settings.timeAuthority →
      (r.body.length ≠ 4 → exec (.timeSet l) s = .next (s.answered l r .badArg .none).refresh) ∧
      (r.body.length = 4 →
        (s.time.pendingSet.isSome = true → exec (.timeSet l) s = .next (s.answered l r .busy .none).refresh) ∧
        (s.time.pendingSet = none →
          exec (.timeSet l) s = .next
            { s.takeRequest l with
              time := { s.time with
                        pendingSet := some { seconds := BitVec.ofNat 32 (unLe r.body), link := l, tag := r.tag } } }.refresh)))

/-- An accepted cue edge is captured on its line alone, raises CUE on both links and arms every outlet whose head waits on the line
with its armed slot empty; where there is none, STRAY_CUE is written. An edge during loading or too early is ignored. -/
def Obligations.CueEdgeTaken : Prop :=
  ∀ (s : State) (k : CueLine) (t : Instant), s.powered = true →
    ((s.loading = true ∨ ∃ u : Instant, (s.cue k).acceptedAt = some u ∧ t < u + 80000000) →
      exec (.cueEdge k t) s = .next s) ∧
    (s.loading = false → (∀ u : Instant, (s.cue k).acceptedAt = some u → u + 80000000 ≤ t) →
      let waits := fun o : OutletId =>
        (∃ d : Declaration, s.head o = some d ∧ d.start = some (.cued k)) ∧ (s.outlet o).sched.armed = none
      ∃ u : State, exec (.cueEdge k t) s = .next u ∧
        u.cue k =
          { count := min 255 ((s.cue k).count + 1), first := some ((s.cue k).first.getD s.time.air), last := some s.time.air,
            acceptedAt := some t } ∧
        (∀ j : CueLine, j ≠ k → u.cue j = s.cue j) ∧ (∀ l : Link, (u.link l).flags.cue = true) ∧
        (∀ (o : OutletId) (d : Declaration), waits o → s.head o = some d →
          u.outlet o = { s.outlet o with
            sched := { (s.outlet o).sched with
              queue := (s.outlet o).sched.queue.tail
              waiting := none
              armed := some
                { decl := d, boundary := .stamp (s.time.air.add (s.outletSettings o).returnDelay), cause := .cue k,
                  armStamp := s.time.air, lateStart := false } } }) ∧
        (∀ o : OutletId, ¬waits o → u.outlet o = s.outlet o) ∧
        ((∃ o : OutletId, waits o) → u.evidence = s.evidence) ∧
        ((∀ o : OutletId, ¬waits o) →
          u.evidence = s.evidence.create
            { outlet := none, stamp := s.time.air, body := .strayCue k (min 255 ((s.cue k).count + 1)) }) ∧
        { u with cues := s.cues, outlets := s.outlets, links := s.links, evidence := s.evidence } = s)

/-- CUE-READ answers the named lines' records and clears their counts and first stamps; an empty set is answered BAD_ARG. -/
def Obligations.CueReadAnswered : Prop :=
  ∀ (s : State) (l : Link) (r : Request), Serving s l 7 r →
    ((r.body.length ≠ 2 ∨ unLe r.body = 0) → exec (.cueRead l) s = .next (s.answered l r .badArg .none).refresh) ∧
    (r.body.length = 2 → unLe r.body ≠ 0 →
      let named := (List.finRange 16).filter fun k => (unLe r.body).testBit k.val
      ∃ cues : Vector CueRecord 16,
        exec (.cueRead l) s = .next
          ({ s with cues := cues }.answered l r .ok (.cueRead (named.map fun k => (k, s.cue k)))).refresh ∧
        ∀ k : CueLine, cues[k] = if (unLe r.body).testBit k.val then { s.cue k with count := 0, first := none } else s.cue k)

/-! ### Segments and breaks (chapter 3) -/

/-- SEG-DECLARE: BAD_ARG, DUPLICATE or FULL with nothing changed; otherwise the declaration joins the queue, and one that becomes
head with the armed slot empty is armed at once where it is due. -/
def Obligations.SegDeclareTaken : Prop :=
  ∀ (s : State) (r : Request), Serving s .automation 1 r →
    (readSegDeclare r.body = none → exec (.segDeclare .automation) s = .next (s.answered .automation r .badArg .none).refresh) ∧
    ∀ (o : OutletId) (d : Declaration), readSegDeclare r.body = some (o, d) →
      let q := (s.outlet o).sched
      let n := q.queue.length
      let pending := (s.modSched o fun q => { q with queue := q.queue ++ [d] }).answered .automation r .ok
        (.segDeclare d.id (.pending (n + 1) (n + 1)))
      (d.id ∈ q.ids → exec (.segDeclare .automation) s = .next (s.answered .automation r .duplicate .none).refresh) ∧
      (d.id ∉ q.ids → 16 ≤ n → exec (.segDeclare .automation) s = .next (s.answered .automation r .full .none).refresh) ∧
      (d.id ∉ q.ids → n < 16 →
        ((q.queue ≠ [] ∨ q.armed.isSome = true ∨
            (∀ a : AirTime, d.start = some (.timed a) → s.time.air.frames < a.frames) ∧
              (d.start = some .follow → s.followDue o = false)) →
          exec (.segDeclare .automation) s = .next pending.refresh) ∧
        (∀ a : AirTime, q.queue = [] → q.armed = none → d.start = some (.timed a) → a.frames ≤ s.time.air.frames →
          let boundary : BoundaryStamp := .stamp (a.add (s.outletSettings o).returnDelay)
          let late := decide (a.frames < s.time.air.frames)
          let armed := s.modSched o fun q =>
            { q with
              waiting := none
              armed := some { decl := d, boundary := boundary, cause := .timed, armStamp := s.time.air, lateStart := late } }
          let record : Draft :=
            { outlet := some o, stamp := s.time.air, body := .lateStart d.id a (s.time.air.frames - a.frames) .lateDeclare }
          exec (.segDeclare .automation) s = .next
            ((if late then armed.create record else armed).answered .automation r .ok
              (.segDeclare d.id (.armed boundary))).refresh) ∧
        (q.queue = [] → q.armed = none → d.start = some .follow → s.followDue o = true →
          exec (.segDeclare .automation) s = .next
            ((s.modSched o fun q =>
                { q with
                  waiting := none
                  armed := some
                    { decl := d, boundary := .nextFrame, cause := .follow, armStamp := s.time.air, lateStart := false } }).answered
              .automation r .ok (.segDeclare d.id (.armed .nextFrame))).refresh))

/-- SEG-WITHDRAW: a pending segment is removed and the others keep their order; a removed head clears the waiting trigger, and the
new head is evaluated; ARMED and UNKNOWN change nothing. That the depth answered is the queue's before that evaluation is the
model's reading (log entry 24). -/
def Obligations.SegWithdrawTaken : Prop :=
  ∀ (s : State) (r : Request), Serving s .automation 2 r →
    (readSegWithdraw r.body = none →
      exec (.segWithdraw .automation) s = .next (s.answered .automation r .badArg .none).refresh) ∧
    ∀ (o : OutletId) (id : BitVec 32), readSegWithdraw r.body = some (o, id) →
      let q := (s.outlet o).sched
      (∀ (front back : List Declaration) (d : Declaration), q.queue = front ++ d :: back → d.id = id →
        (∀ e ∈ front, e.id ≠ id) →
        let body : Body := .segWithdraw (front.length + 1) (front.length + back.length)
        (front ≠ [] →
          exec (.segWithdraw .automation) s = .next
            ((s.modSched o fun q => { q with queue := front ++ back }).answered .automation r .ok body).refresh) ∧
        (front = [] → back = [] →
          exec (.segWithdraw .automation) s = .next
            ((s.modSched o fun q => { q with queue := [], waiting := none }).answered .automation r .ok body).refresh) ∧
        (front = [] →
          exec (.segWithdraw .automation) s = .next
            (((s.modSched o fun q => { q with queue := back, waiting := none }).evaluate o .lateDeclare).answered .automation r .ok
              body).refresh)) ∧
      ((∀ d ∈ q.queue, d.id ≠ id) →
        ((∃ a : Armed, q.armed = some a ∧ a.decl.id = id) ∨ (∃ c : Current, q.current = some c ∧ c.decl.id = id) →
          exec (.segWithdraw .automation) s = .next (s.answered .automation r .armed .none).refresh) ∧
        ((∀ a : Armed, q.armed = some a → a.decl.id ≠ id) → (∀ c : Current, q.current = some c → c.decl.id ≠ id) →
          exec (.segWithdraw .automation) s = .next (s.answered .automation r .unknown .none).refresh))

/-- SEG-TAKE arms the head and SEG-END an UNDECLARED segment, at air time now plus the return delay; with the armed slot occupied
either is answered ARMED, SEG-TAKE with an empty queue EMPTY, and an outlet above 7 BAD_ARG. -/
def Obligations.SegTakeAndEnd : Prop :=
  (∀ (s : State) (r : Request) (b : Byte), r.body = [b] → 8 ≤ b.toNat →
    (Serving s .automation 3 r → exec (.segTake .automation) s = .next (s.answered .automation r .badArg .none).refresh) ∧
    (Serving s .automation 4 r → exec (.segEnd .automation) s = .next (s.answered .automation r .badArg .none).refresh)) ∧
  ∀ (s : State) (r : Request) (o : OutletId), r.body = [outletByte o] →
    let t := s.time.air.add (s.outletSettings o).returnDelay
    let q := (s.outlet o).sched
    (Serving s .automation 3 r →
      (q.armed.isSome = true → exec (.segTake .automation) s = .next (s.answered .automation r .armed .none).refresh) ∧
      (q.armed = none → q.queue = [] →
        exec (.segTake .automation) s = .next (s.answered .automation r .empty .none).refresh) ∧
      ∀ (d : Declaration) (rest : List Declaration), q.armed = none → q.queue = d :: rest →
        exec (.segTake .automation) s = .next
          ((s.modSched o fun q =>
              { q with
                queue := rest
                waiting := none
                armed := some { decl := d, boundary := .stamp t, cause := .take, armStamp := s.time.air, lateStart := false } }).answered
            .automation r .ok (.segTake d.id t)).refresh) ∧
    (Serving s .automation 4 r →
      (q.armed.isSome = true → exec (.segEnd .automation) s = .next (s.answered .automation r .armed .none).refresh) ∧
      (q.armed = none →
        exec (.segEnd .automation) s = .next
          ((s.modSched o fun q =>
              { q with
                armed := some
                  { decl :=
                      { id := 0, kind := .undeclared, cls := s.latestProfile.defaultClass,
                        obligation := s.latestProfile.defaultObligation, language := none, start := none, duration := 0 }
                    boundary := .stamp t, cause := .ending, armStamp := s.time.air, lateStart := false } }).answered
            .automation r .ok (.segEnd t)).refresh))

/-- The requests that only read are answered OK with what stands when they are taken, and change nothing. PAGE-LIST returns the
ring's entries that meet its three tests, in sequence order, the first 64 of them, and continues at the next. METER-READ returns the
readings of its outlet. That FLAGS-READ returns the state of the EVIDENCE condition is the model's choice between R170 and R159 (log
entry 30); that each ring of HOLD-LIST and STATUS comes with its outlet is its reading of their layout (log entry 6). -/
def Obligations.ReadRequestsAnswer : Prop :=
  ∀ (s : State) (l : Link) (r : Request),
    (∀ o : OutletId, r.body = [outletByte o] → Serving s l 5 r →
      exec (.segList l) s = .next (s.answered l r .ok (.segList (s.outlet o).intake.state (s.outlet o).sched)).refresh) ∧
    (r.body = [] → Serving s l 9 r →
      exec (.profileRead l) s = .next
        (s.answered l r .ok
          (.profileRead (s.profiles.slot0.map fun v => (v, s.references v.version))
            (s.profiles.slot1.map fun v => (v, s.references v.version)) s.profiles.latestIsOne)).refresh) ∧
    (∀ a : PageListArgs, readPageList r.body = some a → l = .compliance → Serving s l 10 r →
      let meets := fun x : Nat × PageEntry =>
        (match x.2.state with
         | .empty => false
         | .opened => a.filter.testBit 0
         | .closed => a.filter.testBit 1
         | .released => a.filter.testBit 2) &&
        (match x.2.span with
         | some (lo, hi) => decide (lo.frames ≤ a.last.frames ∧ a.first.frames ≤ hi.frames)
         | none => false) &&
        (match x.2.sequence with
         | some q => decide (a.start = 0 ∨ (s.pageSeq - q).toNat ≤ (s.pageSeq - a.start).toNat)
         | none => false)
      let age := fun x : Nat × PageEntry => (s.pageSeq - x.2.sequence.getD 0).toNat
      ∃ listed : List (Nat × PageEntry),
        listed.Perm ((s.ringPages a.outlet).filter meets) ∧ listed.Pairwise (fun x y => age y ≤ age x) ∧
        exec (.pageList l) s = .next
          (s.answered l r .ok
            (.pageList a.outlet (listed.take 64) ((listed.drop 64).head?.bind fun x => x.2.sequence))).refresh) ∧
    (r.body = [] → Serving s l 15 r →
      exec (.holdList l) s = .next
        (s.answered l r .ok
          (.holdList s.holds
            ((allOutlets.filter fun o => (s.outletSettings o).enabled).map fun o => (o, s.heldPages o, s.budget o)))).refresh) ∧
    (r.body = [] → Serving s l 20 r →
      exec (.status l) s = .next
        (s.answered l r .ok
          (.status (s.outlets.map Outlet.status) s.time.ref s.time.air
            ((allOutlets.filter fun o => (s.outletSettings o).enabled).map fun o => (o, s.ringStatus o)) s.holds.length
            s.evidence.head s.evidence.tail s.evidence.cursor s.evidence.lost (s.settings.regionCount * 1024)
            (s.save.map fun _ => .compliance) (s.link l).outstanding.length (s.link l).deferred.length)).refresh) ∧
    (∀ o : OutletId, r.body = [outletByte o] → Serving s l 21 r →
      let loud := (s.outlet o).loud
      let subs := (s.outlet o).subs
      exec (.meterRead l) s = .next
        ({ s with free := s.free + 2 }.answered l r .ok
          (.meterRead loud.momentary loud.shortTerm (loud.seg.map fun g : SegLoud => g.record.reduce s.free)
            (loud.seg.map fun g : SegLoud => g.record.truePeak) (loud.seg.bind fun g : SegLoud => g.record.gatingMax)
            ((s.current o).map fun c : Current => (c.decl.id, c.frameCount)) subs.showing subs.gap.isSome
            (s.outlet o).verdict.line)).refresh) ∧
    (r.body = [] → Serving s l 22 r →
      exec (.flagsRead l) s = .next
        (s.answered l r .ok
          (.flagsRead (s.link l).flags (s.link l).reason (s.link l).cause (s.evidence.condition l) (s.link l).mask)).refresh)

/-- A segment that becomes current opens a break (COMMERCIAL, PROMO), continues the open one (JUNCTION as well) or closes it (any
other kind); the closed break passes to its slot with the loudness the engine held. At a boundary that closes a break its slot
empties again, its verdict formed within the frame. -/
def Obligations.BreaksStepped : Prop :=
  (∀ (s : State) (o : OutletId) (stamp : AirTime) (c : Current), s.current o = some c →
    let opens : Prop := c.decl.kind = .commercial ∨ c.decl.kind = .promo
    ((s.outlet o).sched.brk = none → opens →
      s.stepBreak o stamp = s.modOutlet o fun t =>
        { t with
          sched := { t.sched with
            brk := some
              { openingId := c.decl.id, openStamp := c.startStamp, firstRfn := c.startRfn, version := s.latestVersion,
                cls := s.latestProfile.breakClass, members := 1, lastMember := c.decl.id, lastStamp := c.startStamp,
                lastRfn := c.startRfn } }
          loud := { t.loud with brk := some emptyLoudRecord } }) ∧
    ((s.outlet o).sched.brk = none → ¬opens → s.stepBreak o stamp = s) ∧
    ∀ b : BreakRecord, (s.outlet o).sched.brk = some b →
      ((opens ∨ c.decl.kind = .junction) →
        s.stepBreak o stamp = s.modOutlet o fun t =>
          { t with sched := { t.sched with
              brk := some { b with members := min 65535 (b.members + 1), lastMember := c.decl.id } } }) ∧
      (¬opens → c.decl.kind ≠ .junction → ∀ r : LoudRecord, (s.outlet o).loud.brk = some r →
        s.stepBreak o stamp = s.modOutlet o fun t =>
          { t with
            sched := { t.sched with brk := none }
            loud := { t.loud with brk := none }
            verdict := { t.verdict with
              brkSlot := some { brk := b, cause := .next, stamp := stamp, loud := r, finalPeak := false } } })) ∧
  ∀ (s : State) (o : OutletId) (bytes : Bytes) (c : Current) (m : Armed), s.powered = true →
    ((s.outlet o).intake.state = .active ∨ (s.outlet o).intake.state = .lost) → s.current o = some c →
    (s.outlet o).sched.armed = some m → m.boundary.met s.time.air = true →
    let opens : Prop := m.decl.kind = .commercial ∨ m.decl.kind = .promo
    ∃ t : State, exec (.airFrameArrival o bytes) s = .next t ∧
      (opens → (s.outlet o).sched.brk = none →
        (t.outlet o).sched.brk = some
          { openingId := m.decl.id, openStamp := s.time.air, firstRfn := (s.outlet o).intake.rfn, version := s.latestVersion,
            cls := s.latestProfile.breakClass, members := 1, lastMember := m.decl.id, lastStamp := s.time.air,
            lastRfn := (s.outlet o).intake.rfn }) ∧
      (∀ b : BreakRecord, (opens ∨ m.decl.kind = .junction) → (s.outlet o).sched.brk = some b →
        (t.outlet o).sched.brk = some
          { b with members := min 65535 (b.members + 1), lastMember := m.decl.id, lastStamp := s.time.air,
                   lastRfn := (s.outlet o).intake.rfn }) ∧
      (¬opens → m.decl.kind ≠ .junction ∨ (s.outlet o).sched.brk = none →
        (t.outlet o).sched.brk = none ∧ ((s.outlet o).sched.brk.isSome = true → (t.outlet o).verdict.brkSlot = none))

/-! ### Subtitles, loudness and verdicts (chapters 4 to 6) -/

/-- The gap timer and the excursion counter. A frame or LOST tick lengthens an open gap, and otherwise takes one from a running
timer; at 0 the gap opens and a breach line that rises raises BREACH. A gating block at or above the threshold takes one from a
running counter; at 0 EXCURSION is written and the counter reloads. The commands GAP_OPEN and EXCURSION do the same where a 0
stands: that they act on a standing 0 only is the model's reading (log entry 10). -/
def Obligations.CountersRunAndFire : Prop :=
  ∀ (s : State) (o : OutletId),
    let opened := fun (a : AirTime) (n : Option Rfn) =>
      let noted := s.modOutlet o fun t =>
        { t with
          subs := { t.subs with
                    timer := .expired, gap := some { start := a, rfn := n, length := 1 },
                    record := t.subs.record.map fun k => { k with gapCount := min 4294967295 (k.gapCount + 1) } }
          verdict := { t.verdict with gapOpen := true, line := true } }
      if (s.outlet o).verdict.line then noted else noted.raiseBoth .breach
    let fired := fun (c : Current) (l : Int) (a : AirTime) =>
      let k := s.limitsOf c
      (s.create
          { outlet := some o, stamp := a,
            body := .excursion c.decl.id l k.excursionThreshold k.excursionInterval c.decl.cls c.version }).modOutlet o fun t =>
        { t with verdict := { t.verdict with
            excursions := min 4294967295 (t.verdict.excursions + 1)
            counter := if k.excursionInterval = 0 then none else some k.excursionInterval } }
    (∀ (a : AirTime) (n : Option Rfn),
      (∀ g : OpenGap, (s.outlet o).subs.gap = some g →
        s.passGap o a n = s.modOutlet o fun t =>
          { t with subs := { t.subs with gap := some { g with length := min 4294967295 (g.length + 1) } } }) ∧
      ((s.outlet o).subs.gap = none →
        (∀ v : Nat, (s.outlet o).subs.timer = .running v →
          (2 ≤ v → s.passGap o a n = s.modOutlet o fun t => { t with subs := { t.subs with timer := .running (v - 1) } }) ∧
          (v ≤ 1 → s.passGap o a n = opened a n)) ∧
        ((s.outlet o).subs.timer = .stopped ∨ (s.outlet o).subs.timer = .expired → s.passGap o a n = s))) ∧
    (∀ (l : Int) (a : AirTime) (c : Current), s.current o = some c →
      ((s.outlet o).verdict.counter = none → s.countExcursion o l a = s) ∧
      ∀ v : Nat, (s.outlet o).verdict.counter = some v →
        (l < (s.limitsOf c).excursionThreshold → s.countExcursion o l a = s) ∧
        ((s.limitsOf c).excursionThreshold ≤ l →
          (2 ≤ v → s.countExcursion o l a = s.modOutlet o fun t =>
            { t with verdict := { t.verdict with counter := some (v - 1) } }) ∧
          (v ≤ 1 → s.countExcursion o l a = fired c l a))) ∧
    (s.powered = true →
      (∀ (a : AirTime) (n : Rfn), (s.outlet o).subs.timer = .running 0 → (s.outlet o).intake.state = .active →
        (s.outlet o).intake.lastArrival = some (a, n) → exec (.gapOpen o) s = .next (opened a (some n)).refresh) ∧
      ∀ (l : Int) (a : AirTime) (c : Current), s.current o = some c → (s.outlet o).verdict.counter = some 0 →
        exec (.excursion o l a) s = .next (fired c l a).refresh)

/-- The Subtitle Checker's work on a frame. Units of another service or of an undefined kind do nothing, those in a wrong language
are counted, and the valid ones set the display state, close an open gap with SUBTITLE_GAP and reload the timer, which then runs;
the frame is seen, and covered where the screen shows; other outlets are untouched. -/
def Obligations.SubtitleFrameChecked : Prop :=
  ∀ (s : State) (o : OutletId) (c : Current) (a : AirTime) (n : Rfn) (units : List SubUnit), s.current o = some c →
    let relevant := fun u : SubUnit => decide (1 ≤ u.kind.toNat ∧ u.kind.toNat ≤ 3 ∧
      u.service.toNat = (s.outletSettings o).subtitleService)
    let spoken := fun u : SubUnit => decide (c.decl.language = none ∨ c.decl.language = some u.language)
    let valid := units.filter fun u => relevant u && spoken u
    let wrong := units.countP fun u => relevant u && !spoken u
    let b := (s.outlet o).subs
    let u := s.checkSubtitles o a n units
    let t := (u.outlet o).subs
    let showing := valid.foldl (fun on x => if x.kind = 1 then true else if x.kind = 2 then false else on) b.showing
    t.showing = showing ∧ t.limit = b.limit ∧
    (∀ k : SubRecord, b.record = some k → ∃ x : SubRecord, t.record = some x ∧
      x.framesSeen = min 16777215 (k.framesSeen + 1) ∧
      x.covered = (if showing then min 16777215 (k.covered + 1) else k.covered) ∧
      x.wrongLanguage = (if wrong = 0 then k.wrongLanguage else min 4294967295 (k.wrongLanguage + wrong)) ∧
      x.longestGap =
        match b.gap with
        | some g => if valid = [] then k.longestGap else max k.longestGap g.length
        | none => k.longestGap) ∧
    (valid = [] →
      t.timer = ((s.passGap o a (some n)).outlet o).subs.timer ∧ t.gap = ((s.passGap o a (some n)).outlet o).subs.gap) ∧
    (valid ≠ [] → b.timer = .stopped → t.timer = .stopped) ∧
    (∀ g : Nat, valid ≠ [] → b.timer ≠ .stopped → b.limit = some g → 2 ≤ g → t.timer = .running (g - 1) ∧ t.gap = none) ∧
    u.evidence =
      (match b.gap with
       | some g =>
         if valid = [] then s.evidence
         else s.evidence.create
           { outlet := some o, stamp := a,
             body := .subtitleGap c.decl.id c.decl.obligation (b.limit.getD 0) g.start g.rfn a g.length .unit }
       | none => s.evidence) ∧
    (∀ p : OutletId, p ≠ o → u.outlet p = s.outlet p) ∧
    { u.outlet o with subs := b, verdict := (s.outlet o).verdict } = s.outlet o ∧
    { u with outlets := s.outlets, evidence := s.evidence, links := s.links } = s

/-- The loudness, short-term, peak and subtitle outcomes, row by row; the limits themselves pass. -/
def Obligations.OutcomesDecided : Prop :=
  (∀ (k : ClassLimits) (r : LoudRecord) (peak : Int),
    (judge k r .silent peak).loudness = .silent ∧ (judge k r .silent peak).integrated = -12000 ∧
    (judge k r .notEvaluated peak).loudness = .notEvaluated ∧ (judge k r .notEvaluated peak).integrated = -12000 ∧
    ∀ code gate : Int, (judge k r (.value code gate) peak).integrated = code ∧
      (k.target + k.toleranceAbove < code → (judge k r (.value code gate) peak).loudness = .high) ∧
      (code ≤ k.target + k.toleranceAbove → code < k.target - k.toleranceBelow →
        (judge k r (.value code gate) peak).loudness = .low) ∧
      (code ≤ k.target + k.toleranceAbove → k.target - k.toleranceBelow ≤ code →
        (judge k r (.value code gate) peak).loudness = .pass)) ∧
  (∀ (k : ClassLimits) (r : LoudRecord) (x : Reduction) (peak : Int),
    (k.shortTermMax = none → (judge k r x peak).shortTerm = .none) ∧
    (k.shortTermMax.isSome = true → r.shortTermMax = none → (judge k r x peak).shortTerm = .notEvaluated) ∧
    (∀ m v : Int, k.shortTermMax = some m → r.shortTermMax = some v →
      (judge k r x peak).shortTerm = if m < v then .over else .pass) ∧
    ((judge k r x peak).peakOver = true ↔ k.peakMax < peak)) ∧
  ∀ r : SubRecord, subOutcome .exempt r = .exempt ∧
    ∀ x : Obligation, x ≠ .exempt →
      (0 < r.gapCount → subOutcome x r = .gap) ∧
      (r.gapCount = 0 → 0 < r.wrongLanguage → subOutcome x r = .wrongLanguage) ∧
      (r.gapCount = 0 → r.wrongLanguage = 0 → subOutcome x r = .pass)

/-- The verdict of a closing slot, of a segment or of a break, that has its final maximum: judged by its own record and class,
failed exactly by the outcomes R102 and R103 name, its hold requested exactly where it failed and its class holds on fail, the
record handed over, VERDICT raised on both links, and the slot emptied. -/
def Obligations.VerdictsFormed : Prop :=
  (∀ (s : State) (o : OutletId) (c : ClosedSegment) (peak : Int), (s.outlet o).verdict.segSlot = some c → c.finalPeak = some peak →
    ∃ (v : Verdict) (u : State),
      s.formVerdict (.segment o) =
        ((u.create { outlet := some o, stamp := c.stamp, body := .verdict v }).raiseBoth .verdict).modOutlet o
          (fun t => { t with verdict := { t.verdict with segSlot := none } }) ∧
      v.cur = c.cur ∧ v.cause = c.cause ∧ v.excursions = c.excursions ∧ v.subs = c.subs ∧ v.full = c.loud.full ∧
      v.coverage = 1000 * c.subs.covered / c.subs.framesSeen ∧ v.saturated = c.loud.record.saturated ∧
      v.judgement = judge (s.limitsOf c.cur) c.loud.record (c.loud.record.reduce s.free) peak ∧ v.judgement.finalPeak = peak ∧
      v.subtitle = subOutcome c.cur.decl.obligation c.subs ∧
      (v.failed = true ↔ v.judgement.loudness = .high ∨ v.judgement.loudness = .low ∨ v.judgement.shortTerm = .over ∨
        v.judgement.peakOver = true ∨ v.subtitle = .gap) ∧
      ((v.failed = false ∨ (s.limitsOf c.cur).holdOnFail = false) → u = s.useFree 2 ∧ v.hold = .none) ∧
      (v.failed = true → (s.limitsOf c.cur).holdOnFail = true →
        let placed := (s.useFree 2).place (.autoSegment c.cur.decl.id) o (c.cur.startStamp.earlier c.cur.lastStamp)
          (c.cur.startStamp.later c.cur.lastStamp)
        u = placed.1 ∧ v.hold = placed.2.result)) ∧
  ∀ (s : State) (o : OutletId) (c : ClosedBreak), (s.outlet o).verdict.brkSlot = some c → c.finalPeak = true →
    let k := (s.profileOf c.brk.version).classes[c.brk.cls]
    ∃ (v : BreakVerdict) (u : State),
      s.formVerdict (.brk o) =
        ((u.create { outlet := some o, stamp := c.stamp, body := .breakVerdict v }).raiseBoth .verdict).modOutlet o
          (fun t => { t with verdict := { t.verdict with brkSlot := none } }) ∧
      v.brk = c.brk ∧ v.cause = c.cause ∧ v.saturated = c.loud.saturated ∧
      v.judgement = judge k c.loud (c.loud.reduce s.free) c.loud.truePeak ∧ v.judgement.finalPeak = c.loud.truePeak ∧
      (v.failed = true ↔ v.judgement.loudness = .high ∨ v.judgement.loudness = .low ∨ v.judgement.shortTerm = .over ∨
        v.judgement.peakOver = true) ∧
      ((v.failed = false ∨ k.holdOnFail = false) → u = s.useFree 2 ∧ v.hold = .none) ∧
      (v.failed = true → k.holdOnFail = true →
        let placed := (s.useFree 2).place (.autoBreak c.brk.openingId) o (c.brk.openStamp.earlier c.brk.lastStamp)
          (c.brk.openStamp.later c.brk.lastStamp)
        u = placed.1 ∧ v.hold = placed.2.result)

/-- PROFILE-STAGE: BAD_ARG for a profile out of range, BUSY while the target slot's version is referred to, and otherwise the
profile is installed in the target slot as the next version, latest, with PROFILE_APPLIED. -/
def Obligations.ProfileStageTaken : Prop :=
  ∀ (s : State) (r : Request), Serving s .compliance 8 r →
    (readProfileStage r.body = none →
      exec (.profileStage .compliance) s = .next (s.answered .compliance r .badArg .none).refresh) ∧
    ∀ p : Profile, readProfileStage r.body = some p →
      let target := if s.profiles.latestIsOne then s.profiles.slot0 else s.profiles.slot1
      let version := if 65535 ≤ s.latestVersion then 1 else s.latestVersion + 1
      ((∃ v : ProfileVersion, target = some v ∧ 0 < s.references v.version) →
        exec (.profileStage .compliance) s = .next (s.answered .compliance r .busy .none).refresh) ∧
      ((∀ v : ProfileVersion, target = some v → s.references v.version = 0) →
        exec (.profileStage .compliance) s = .next
          ({ s with
             profiles :=
               { slot0 := if s.profiles.latestIsOne then some { version := version, profile := p } else s.profiles.slot0
                 slot1 := if s.profiles.latestIsOne then s.profiles.slot1 else some { version := version, profile := p }
                 latestIsOne := !s.profiles.latestIsOne }
             evidence := s.evidence.create
               { outlet := none, stamp := s.time.air,
                 body := .profileApplied version (target.map ProfileVersion.version) true } }.answered .compliance r .ok
            (.profileStage version (target.map ProfileVersion.version))).refresh)

/-! ### Record store and Memory Arbiter (chapter 7) -/

/-- A frame record at its writer. IDLE or WRITING takes it into the FIFO while 262,144 bytes are not passed, with FRAME_DROP first
for a drop run, and otherwise counts it into the drop run. SUSPENDED counts it, or, with an eligible page, writes RECORD_RESUME,
becomes IDLE and takes it so. An arrival's record is the frame's as treated, with the segment that is then current. -/
def Obligations.WriteFifoAtFrame : Prop :=
  (∀ (s : State) (o : OutletId) (r : FrameRecord),
    let w := (s.outlet o).writer
    let used := (w.fifo.map fun i => match i with | .record x => x.bytes.length | .closeMark => 0).sum
    let joined := fun run : Option DropRun =>
      match run with
      | some d => { d with count := min 4294967295 (d.count + 1), lastStamp := r.stamp, lastRfn := r.rfn : DropRun }
      | none => { count := 1, firstStamp := r.stamp, firstRfn := r.rfn, lastStamp := r.stamp, lastRfn := r.rfn }
    let written := fun body : EvidenceBody => (s.create { outlet := some o, stamp := r.stamp, body := body }).raiseBoth .record
    (w.mode ≠ .suspended →
      (used + r.bytes.length ≤ 262144 →
        (w.dropRun = none → s.record o r = s.modWriter o fun w => { w with fifo := w.fifo ++ [.record r] }) ∧
        ∀ run : DropRun, w.dropRun = some run →
          s.record o r = (written (.frameDrop run)).modWriter o fun w =>
            { w with dropRun := none, fifo := w.fifo ++ [.record r] }) ∧
      (262144 < used + r.bytes.length →
        s.record o r = s.modWriter o fun w => { w with dropRun := some (joined w.dropRun) })) ∧
    (w.mode = .suspended →
      (s.eligible o = false → s.record o r = s.modWriter o fun w => { w with suspendRun := some (joined w.suspendRun) }) ∧
      ∀ run : DropRun, s.eligible o = true → w.suspendRun = some run →
        s.record o r =
          ((written (.recordResume run)).modWriter o fun w => { w with mode := .idle, suspendRun := none }).record o r) ∧
    (s.eligible o = true ↔
      (∃ p : Nat, (s.outletSettings o).owns p = true ∧
        ((pageAt s.directory p).state = .empty ∨
          (pageAt s.directory p).state = .released ∧ (pageAt s.directory p).holdCount = 0)) ∨
      ((s.outletSettings o).policy = .overwrite ∧ ∃ x ∈ s.ringPages o,
        x.2.state = .closed ∧ x.2.holdCount = 0 ∧ x.2.sequence.isSome = true))) ∧
  ∀ (s : State) (o : OutletId) (bytes : Bytes), s.powered = true →
    ((s.outlet o).intake.state = .waiting ∨
      ((s.outlet o).intake.state = .active ∨ (s.outlet o).intake.state = .lost) ∧ (s.current o).isSome = true) →
    let f := treat o bytes
    let w := (s.outlet o).writer
    let i := (s.outlet o).intake
    let content := fun id : BitVec 32 =>
      { outlet := f.outlet, sequence := f.sequence, rfn := i.rfn, stamp := s.time.air, segment := id,
        flags := f.flags i.expected s.time.ref, layout := f.layout, samples := f.samples, units := f.units,
        proxy := f.proxy : RecordContent }
    w.mode ≠ .suspended → w.dropRun = none → occupancy w.fifo + (content 0).length ≤ 262144 →
    ∃ (t : State) (c : Current), exec (.airFrameArrival o bytes) s = .next t ∧ t.current o = some c ∧
      (t.outlet o).writer =
        { w with fifo := w.fifo ++
            [.record { bytes := (content c.decl.id).bytes, stamp := s.time.air, rfn := i.rfn,
                       flags := f.flags i.expected s.time.ref }] }

/-- A writer's take: into the OPEN page at its fill where the record fits, by a page advance otherwise (a free page, a discarded
page, or suspension), and a close mark makes the writer IDLE. At suspension FRAME_DROP, where a FIFO drop run is open, and
RECORD_SUSPEND with the ring's counts are written. The free page is the first in ring order after the write position,
wrapping, that is EMPTY or RELEASED and unheld; the discarded one, under OVERWRITE, the unheld CLOSED page of greatest age. -/
def Obligations.RecordTakePlaces : Prop :=
  (∀ (s : State) (o : OutletId),
    let st := s.outletSettings o
    let start :=
      match (s.outlet o).writer.writePos with
      | some p => p + 1 - st.ringFirst
      | none => 0
    let place := fun k : Nat => st.ringFirst + (start + k) % st.ringCount
    let free := fun n : Nat => (pageAt s.directory n).state = .empty ∨
      (pageAt s.directory n).state = .released ∧ (pageAt s.directory n).holdCount = 0
    let discardable := fun x : Nat × PageEntry =>
      x ∈ s.ringPages o ∧ x.2.state = .closed ∧ x.2.holdCount = 0 ∧ x.2.sequence.isSome = true
    let age := fun x : Nat × PageEntry => (s.pageSeq - x.2.sequence.getD 0).toNat
    (∀ n : Nat, s.choiceOne o = some n ↔
      st.enabled = true ∧ ∃ k : Nat, k < st.ringCount ∧ n = place k ∧ free n ∧ ∀ j : Nat, j < k → ¬free (place j)) ∧
    (∀ x : Nat × PageEntry, s.choiceTwo o = some x →
      st.policy = .overwrite ∧ discardable x ∧ ∀ y : Nat × PageEntry, discardable y → age y ≤ age x) ∧
    (s.choiceTwo o = none ↔ st.policy ≠ .overwrite ∨ ∀ x : Nat × PageEntry, ¬discardable x)) ∧
  ∀ (s : State) (o : OutletId), s.powered = true → (s.outlet o).writer.placed = none →
    (s.outlet o).writer.mode ≠ .suspended →
    let put := fun (s : State) (page offset : Nat) => s.modWriter o fun w =>
      { w with placed := some { page := page, offset := offset, written := 0 } }
    let closed := fun n : Nat => report o n true (s.modPage n fun e => { e with state := .closed })
    (∀ (r : FrameRecord) (rest : List FifoItem), (s.outlet o).writer.fifo = .record r :: rest →
      (∀ (n : Nat) (e : PageEntry), s.openPage o = some (n, e) → (s.outlet o).writer.mode = .writing →
        e.fill + r.bytes.length ≤ 131072 → exec (.recordTake o) s = .next (put s n e.fill).refresh) ∧
      (∀ (n : Nat) (e : PageEntry), s.openPage o = some (n, e) →
        ((s.outlet o).writer.mode ≠ .writing ∨ 131072 < e.fill + r.bytes.length) → (closed n).openPage o = none →
        exec (.recordTake o) s = exec (.recordTake o) (closed n)) ∧
      (s.openPage o = none →
        (∀ n : Nat, s.choiceOne o = some n →
          let q : BitVec 32 := if s.pageSeq = 4294967295 then 1 else s.pageSeq + 1
          exec (.recordTake o) s = .next
            ((put
                { s with
                  pageSeq := q
                  directory := setPage s.directory n
                    { state := .opened, sequence := some q, span := none, rfns := none, fill := 0, frameCount := 0,
                      holdCount := (pageAt s.directory n).holdCount, flags := 0 } }
                n 0).modWriter o fun w => { w with mode := .writing, writePos := some n }).refresh) ∧
        (s.choiceOne o = none →
          (∀ (n : Nat) (e : PageEntry), s.choiceTwo o = some (n, e) →
            exec (.recordTake o) s = .next
              ((((s.create { outlet := some o, stamp := r.stamp, body := .pageLost n e }).raiseBoth .record).openFor o n).refresh)) ∧
          (s.choiceTwo o = none →
            ∃ u : State, exec (.recordTake o) s = .next u ∧
              (u.outlet o).writer =
                { mode := .suspended, fifo := [], placed := none, dropRun := none,
                  suspendRun := dropItems (s.outlet o).writer.fifo, writePos := (s.outlet o).writer.writePos } ∧
              (let st := s.outletSettings o
               let count := fun x : PageState => (s.ringPages o).countP fun e => decide (e.2.state = x)
               u.evidence =
                 ((match (s.outlet o).writer.dropRun with
                   | some run => [{ outlet := some o, stamp := r.stamp, body := .frameDrop run }]
                   | none => []) ++
                   [{ outlet := some o, stamp := r.stamp,
                      body :=
                        .recordSuspend r.rfn st.policy (st.ringCount - (count .opened + count .closed + count .released))
                          (count .opened) (count .closed) (count .released)
                          ((s.ringPages o).countP fun e => decide (0 < e.2.holdCount)) : Draft }]).foldl
                   Evidence.create s.evidence) ∧
              (∀ p : OutletId, p ≠ o → u.outlet p = s.outlet p) ∧ (∀ l : Link, (u.link l).flags.record = true) ∧
              { u with outlets := s.outlets, evidence := s.evidence, links := s.links } = s)))) ∧
    ∀ rest : List FifoItem, (s.outlet o).writer.fifo = .closeMark :: rest →
      (s.openPage o = none →
        exec (.recordTake o) s = .next (s.modWriter o fun w => { w with mode := .idle, fifo := rest }).refresh) ∧
      ∀ (n : Nat) (e : PageEntry), s.openPage o = some (n, e) →
        exec (.recordTake o) s = .next ((closed n).modWriter o fun w => { w with mode := .idle, fifo := rest }).refresh

/-- A write burst stores its bytes and no other byte of record memory changes. After a record's last burst the page's entry takes
the record all at once, the record leaves the FIFO, no other page changes, and every deferred read of either link that the new fill
satisfies passes to its fetch queue. At a page's close every deferred read of it leaves its table: fetched up to the fill, or
answered SHORT at once where no byte lies below it. -/
def Obligations.RecordBurstsStore : Prop :=
  (∀ (s : State) (o : OutletId) (n : Nat) (p : Placed) (r : FrameRecord), s.port = some (.record o n false) →
    (s.outlet o).writer.inProgress = some (p, r) → s.restarting = none →
    let stored := min n (r.bytes.length - p.written)
    ∃ m : List Host.Cell,
      exec .recordBurstComplete s = .next
        (({ s with port := none, memory := m }.modWriter o fun w =>
          { w with placed := some { p with written := p.written + n } })).refresh ∧
      ∀ a : Nat, readByte m a =
        if p.address ≤ a ∧ a < p.address + stored then r.bytes.getD (p.written + (a - p.address)) 0 else readByte s.memory a) ∧
  (∀ (s : State) (o : OutletId) (n : Nat) (p : Placed) (r : FrameRecord), s.port = some (.record o n true) →
    (s.outlet o).writer.inProgress = some (p, r) → s.restarting = none →
    let stored := min n (r.bytes.length - p.written)
    let e := pageAt s.directory p.page
    let met := fun d : Deferred =>
      decide (d.outlet = o ∧ e.sequence = some d.sequence ∧ d.offset + d.length ≤ e.fill + r.bytes.length)
    ∃ u : State, exec .recordWriteComplete s = .next u ∧
      (∀ a : Nat, readByte u.memory a =
        if p.address ≤ a ∧ a < p.address + stored then r.bytes.getD (p.written + (a - p.address)) 0
        else readByte s.memory a) ∧
      pageAt u.directory p.page =
        { e with
          fill := e.fill + r.bytes.length
          frameCount := e.frameCount + 1
          span := some (match e.span with | some (a, b) => (a.earlier r.stamp, b.later r.stamp) | none => (r.stamp, r.stamp))
          rfns := some (match e.rfns with | some (a, _) => (a, r.rfn) | none => (r.rfn, r.rfn))
          flags := e.flags ||| r.flags } ∧
      (∀ page : Nat, page ≠ p.page → pageAt u.directory page = pageAt s.directory page) ∧
      (∀ q : OutletId, q ≠ o → u.outlet q = s.outlet q) ∧
      u.outlet o =
        { s.outlet o with
          writer := { (s.outlet o).writer with placed := none, fifo := (s.outlet o).writer.fifo.tail } } ∧
      u.port = none ∧
      (∀ l : Link, ∃ order : List Deferred, order.Perm ((s.link l).deferred.filter met) ∧
        u.link l =
          { s.link l with
            deferred := (s.link l).deferred.filter fun d => !met d
            fetches := (s.link l).fetches ++ order.map fun d =>
              .page d.tag d.outlet d.sequence p.page d.offset d.length false
            attention := (u.link l).attention }) ∧
      { u with port := s.port, memory := s.memory, directory := s.directory, outlets := s.outlets, links := s.links,
               free := s.free } = s) ∧
  ∀ (s : State) (o : OutletId) (page : Nat),
    let e := pageAt s.directory page
    let met := fun d : Deferred => decide (d.outlet = o ∧ e.sequence = some d.sequence)
    let u := report o page true s
    (∀ l : Link, ∃ order : List Deferred, order.Perm ((s.link l).deferred.filter met) ∧
      let empty := order.filter fun d => (deferredFetch page e.fill true d).isNone
      u.link l =
        { s.link l with
          deferred := (s.link l).deferred.filter fun d => !met d
          fetches := (s.link l).fetches ++ order.filterMap (deferredFetch page e.fill true)
          outstanding := (empty.map Deferred.tag).foldl List.erase (s.link l).outstanding
          responses := (s.link l).responses ++ empty.map fun d =>
            { tag := d.tag, code := 11, status := .short, body := .pageRead [] e.state e.fill } }) ∧
    { u with links := s.links, free := s.free } = s

/-- A grant to a writer carries the next part of its record, at most 4096 bytes; a grant to a link's read carries the read at the
head of its fetch queue, given up already where a reset of the link met it there (that such a read is still granted is the model's
reading of R160 and R173, log entry 32); with the port busy or nothing requesting there is
no grant. The arbiter decides exactly while something is requesting. It searches the HIGH rotation from its position, wrapping, and
passes over what is not requesting; the LOW position, last in it, stands for the LOW rotation, searched likewise from its own
position. Each position moves just past where its search stopped. -/
def Obligations.GrantsOneBurst : Prop :=
  (∀ s : State,
    let all := [.writer 0, .writer 1, .writer 2, .writer 3, .writer 4, .writer 5, .writer 6, .writer 7, .evidence,
      .reader .compliance, .reader .automation]
    let low : List Requester := all.filter fun q => !s.inHigh q
    let high : List (Option Requester) := (all.filter s.inHigh).map some ++ if low = [] then [] else [none]
    let inHigh := fun i : Nat => high[(s.highPos + i) % high.length]?
    let inLow := fun i : Nat => low[(s.lowPos + i) % low.length]?
    (s.decision = none ↔ ∀ q : Requester, s.requesting q = false) ∧
    ∀ d : Decision, s.decision = some d →
      s.requesting d.granted = true ∧
      ∃ i : Nat, i < high.length ∧ d.highPos = (s.highPos + i + 1) % high.length ∧
        (∀ j : Nat, j < i →
          (∀ q : Requester, inHigh j = some (some q) → s.requesting q = false) ∧
          (inHigh j = some none → ∀ q ∈ low, s.requesting q = false)) ∧
        (inHigh i = some (some d.granted) ∧ d.lowPos = s.lowPos ∨
          inHigh i = some none ∧ ∃ k : Nat, k < low.length ∧ inLow k = some d.granted ∧
            d.lowPos = (s.lowPos + k + 1) % low.length ∧
            ∀ j : Nat, j < k → ∀ q : Requester, inLow j = some q → s.requesting q = false)) ∧
  ∀ s : State, s.powered = true →
    ((s.port.isSome = true ∨ s.decision = none) → exec .arbiterGrant s = .next s) ∧
    ∀ d : Decision, s.port = none → s.decision = some d →
      (∀ (o : OutletId) (p : Placed) (r : FrameRecord), d.granted = .writer o →
        (s.outlet o).writer.inProgress = some (p, r) →
        let n := min 4096 (r.bytes.length - p.written)
        p.page * 131072 + p.offset + p.written + n ≤ s.settings.memoryGiB * 1073741824 →
        exec .arbiterGrant s = .next
          { s with highPos := d.highPos, lowPos := d.lowPos,
                   port := some (.record o n (decide (p.written + n = r.bytes.length))) }.refresh) ∧
      (∀ (l : Link) (f : Fetch) (rest : List Fetch), d.granted = .reader l → (s.link l).fetches = f :: rest →
        exec .arbiterGrant s = .next
          (({ s with highPos := d.highPos, lowPos := d.lowPos,
                     port := some (.read l f (decide (0 < (s.link l).givenUp))) }).modLink l fun p =>
            { p with fetches := rest, givenUp := p.givenUp - 1 }).refresh)

/-- PAGE-READ, row by row: BAD_ARG, STALE, OK and SHORT fetched with the link held, SHORT with no bytes at once, and a read past the
fill of an OPEN page deferred with the link left free. -/
def Obligations.PageReadTaken : Prop :=
  ∀ (s : State) (r : Request), Serving s .compliance 11 r →
    (readPageRead r.body = none → exec (.pageRead .compliance) s = .next (s.answered .compliance r .badArg .none).refresh) ∧
    ∀ a : PageReadArgs, readPageRead r.body = some a →
      let fetched := fun (page length : Nat) (short : Bool) =>
        ((s.takeRequest .compliance).modLink .compliance fun p =>
          { p with
            held := some r.tag
            fetches := p.fetches ++ [.page r.tag a.outlet a.sequence page a.offset length short] }).refresh
      (s.findPage a.outlet a.sequence = none →
        exec (.pageRead .compliance) s = .next (s.answered .compliance r .stale .none).refresh) ∧
      ∀ (page : Nat) (e : PageEntry), s.findPage a.outlet a.sequence = some (page, e) →
        (a.offset + a.length ≤ e.fill → exec (.pageRead .compliance) s = .next (fetched page a.length false)) ∧
        (e.fill < a.offset + a.length → e.state ≠ .opened → a.offset < e.fill →
          exec (.pageRead .compliance) s = .next (fetched page (e.fill - a.offset) true)) ∧
        (e.fill ≤ a.offset → e.fill < a.offset + a.length → e.state ≠ .opened →
          exec (.pageRead .compliance) s = .next
            (s.answered .compliance r .short (.pageRead [] e.state e.fill)).refresh) ∧
        (e.fill < a.offset + a.length → e.state = .opened → s.restarting = none →
          ((s.link .compliance).deferred.length < 4 →
            exec (.pageRead .compliance) s = .next
              ((s.takeRequest .compliance).modLink .compliance fun p =>
                { p with
                  deferred := p.deferred ++
                    [{ tag := r.tag, outlet := a.outlet, sequence := a.sequence, offset := a.offset, length := a.length,
                       age := 0 }] }).refresh) ∧
          (4 ≤ (s.link .compliance).deferred.length →
            exec (.pageRead .compliance) s = .next
              (s.answered .compliance r .notYet (.pageRead [] e.state e.fill)).refresh)) ∧
        (e.fill < a.offset + a.length → e.state = .opened → s.restarting.isSome = true →
          exec (.pageRead .compliance) s = .next
            (s.answered .compliance r .aborted (.pageRead [] e.state e.fill)).refresh)

/-- The completion of a page read's fetch: the page's bytes where it still holds the sequence, STALE where it does not, and nothing
where the read was given up; the link is freed where the read held it. -/
def Obligations.PageFetchAnswered : Prop :=
  ∀ (s : State) (l : Link) (tag : Tag) (o : OutletId) (q : BitVec 32) (page offset length : Nat) (short abandoned : Bool),
    s.port = some (.read l (.page tag o q page offset length short) abandoned) → s.restarting = none →
    let answered := fun (status : Status) (body : Body) =>
      (({ s with port := none } : State).modLink l fun p =>
        { p with
          held := if p.held = some tag then none else p.held
          outstanding := p.outstanding.erase tag
          responses := p.responses ++ [{ tag := tag, code := 11, status := status, body := body }] }).refresh
    (abandoned = true → exec .pageReadFetchComplete s = .next { s with port := none }.refresh) ∧
    (abandoned = false → s.findPage o q = none → exec .pageReadFetchComplete s = .next (answered .stale .none)) ∧
    ∀ (n : Nat) (e : PageEntry), abandoned = false → s.findPage o q = some (n, e) →
      exec .pageReadFetchComplete s = .next
        (answered (if short then .short else .ok)
          (.pageRead ((List.range length).map fun i => readByte s.memory (page * 131072 + offset + i)) e.state e.fill))

/-- PAGE-RELEASE, row by row: only a CLOSED page changes, and only its state. -/
def Obligations.PageReleaseTaken : Prop :=
  ∀ (s : State) (r : Request), Serving s .compliance 12 r →
    (readPageRelease r.body = none →
      exec (.pageRelease .compliance) s = .next (s.answered .compliance r .badArg .none).refresh) ∧
    ∀ (o : OutletId) (q : BitVec 32), readPageRelease r.body = some (o, q) →
      (s.findPage o q = none → exec (.pageRelease .compliance) s = .next (s.answered .compliance r .stale .none).refresh) ∧
      ∀ (n : Nat) (e : PageEntry), s.findPage o q = some (n, e) →
        (e.state = .closed →
          ∃ d : List (Nat × PageEntry),
            exec (.pageRelease .compliance) s = .next ({ s with directory := d }.answered .compliance r .ok .none).refresh ∧
            pageAt d n = { pageAt s.directory n with state := .released } ∧
            ∀ m : Nat, m ≠ n → pageAt d m = pageAt s.directory m) ∧
        (e.state = .released →
          exec (.pageRelease .compliance) s = .next (s.answered .compliance r .already .none).refresh) ∧
        (e.state = .opened → exec (.pageRelease .compliance) s = .next (s.answered .compliance r .busy .none).refresh)

/-- The deferred reads of a link whose age stands at 50 leave its table and are answered NOT_YET with no data, in either order, and
nothing else changes but the attention lines. That the command acts on a standing age only is the model's reading (log entry 10). -/
def Obligations.DeferredReadTimesOut : Prop :=
  ∀ (s : State) (l m : Link), s.powered = true → (∃ d ∈ (s.link l).deferred, 50 ≤ d.age) → m ≠ l →
    ∃ (u : State) (order : List Deferred), exec (.deferredReadTimeout l) s = .next u ∧
      order.Perm ((s.link l).deferred.filter fun d => decide (50 ≤ d.age)) ∧
      u.link l =
        { s.link l with
          deferred := (s.link l).deferred.filter fun d => decide (d.age < 50)
          outstanding := (order.map Deferred.tag).foldl List.erase (s.link l).outstanding
          responses := (s.link l).responses ++ order.map fun d =>
            { tag := d.tag, code := 11, status := .notYet,
              body :=
                match s.findPage d.outlet d.sequence with
                | some x => .pageRead [] x.2.state x.2.fill
                | none => .none }
          attention := (u.link l).attention } ∧
      { u.link m with attention := (s.link m).attention } = s.link m ∧
      { u with links := s.links, free := s.free } = s

/-! ### Holds (chapter 8) -/

/-- HOLD-PLACE: FULL and EMPTY change nothing; a placement that is made adds one to the hold count of every page of its range and of
no other, takes an id no other entry has, joins the table's end, and keeps the ring's held pages within half the ring. -/
def Obligations.HoldPlaced : Prop :=
  ∀ (s : State) (r : Request) (o : OutletId) (a b : AirTime), Serving s .compliance 13 r →
    readHoldPlace r.body = some (o, a, b) →
    let range := trimRange (s.heldPages o) (s.budget o) (s.candidates o a b)
    (32 ≤ s.holds.length → exec (.holdPlace .compliance) s = .next (s.answered .compliance r .full .none).refresh) ∧
    (s.holds.length < 32 → range = [] →
      exec (.holdPlace .compliance) s = .next (s.answered .compliance r .empty .none).refresh) ∧
    (s.holds.length < 32 → range ≠ [] → directoryWf s.directory = true →
      ∃ (u : State) (h : Hold), exec (.holdPlace .compliance) s = .next u ∧ u.holds = s.holds ++ [h] ∧
        h.origin = .manual ∧ h.outlet = o ∧ h.spanFirst = a ∧ h.spanLast = b ∧ h.pages = range.length ∧
        h.trimmed = decide (range.length < (s.candidates o a b).length) ∧ h.placed = s.time.air ∧
        1 ≤ h.id ∧ h.id ≤ 65535 ∧ (∀ x ∈ s.holds, x.id ≠ h.id) ∧ u.holdCounter = h.id ∧
        (∀ n : Nat, pageAt u.directory n =
          { pageAt s.directory n with
            holdCount := (pageAt s.directory n).holdCount + (if n ∈ range.map Prod.fst then 1 else 0) }) ∧
        u.heldPages o ≤ (s.outletSettings o).ringCount / 2 ∧
        (u.link .compliance).responses = (s.link .compliance).responses ++
          [{ tag := r.tag, code := 13, status := .ok,
             body := .holdPlace h.id h.firstSeq h.lastSeq h.pages h.trimmed h.beforeOldest }] ∧
        { u with directory := s.directory, holds := s.holds, holdCounter := s.holdCounter, evidence := s.evidence,
                 links := s.links } = s)

/-- HOLD-RELEASE: an id no entry holds is answered UNKNOWN; otherwise the entry goes, and the hold count of every page in its
covered range, and of no other, falls by one. -/
def Obligations.HoldReleased : Prop :=
  ∀ (s : State) (r : Request) (id : Nat), Serving s .compliance 14 r → readHoldRelease r.body = some id →
    ((∀ h ∈ s.holds, h.id ≠ id) →
      exec (.holdRelease .compliance) s = .next (s.answered .compliance r .unknown .none).refresh) ∧
    ∀ h : Hold, s.holds.find? (fun x => x.id == id) = some h → directoryWf s.directory = true →
      let pages := (s.covered h).map Prod.fst
      let freed := (s.covered h).countP fun x => x.2.holdCount == 1
      ∃ u : State, exec (.holdRelease .compliance) s = .next u ∧ u.holds = s.holds.filter (fun x => x.id != id) ∧
        (∀ n : Nat, pageAt u.directory n =
          { pageAt s.directory n with
            holdCount := (pageAt s.directory n).holdCount - (if n ∈ pages then 1 else 0) }) ∧
        u.evidence = s.evidence.create { outlet := some h.outlet, stamp := s.time.air, body := .holdReleased h freed } ∧
        (u.link .compliance).responses = (s.link .compliance).responses ++
          [{ tag := r.tag, code := 14, status := .ok, body := .holdRelease id freed }] ∧
        { u with directory := s.directory, holds := s.holds, evidence := s.evidence, links := s.links } = s

/-! ### Evidence ring (chapter 9) -/

/-- Every record created takes the counter's value as its sequence and moves the counter on by one, whether it enters the FIFO or is
lost at a full one, and at power-on the counter is 0. -/
def Obligations.EvidenceSequence : Prop :=
  (∀ (s : State) (d : Draft),
    (s.create d).evidence.sequence = s.evidence.sequence + 1 ∧
    (s.evidence.fifo.length < 64 →
      (s.create d).evidence.fifo = s.evidence.fifo ++
        [{ draft := d, sequence := s.evidence.sequence, lossBefore := s.evidence.lossPending }] ∧
      (s.create d).evidence.lossPending = false ∧ (s.create d).evidence.lost = s.evidence.lost) ∧
    (64 ≤ s.evidence.fifo.length →
      (s.create d).evidence.fifo = s.evidence.fifo ∧ (s.create d).evidence.lossPending = true ∧
      (s.create d).evidence.lost = min 4294967295 (s.evidence.lost + 1)) ∧
    (s.create d).evidence.head = s.evidence.head ∧ (s.create d).evidence.tail = s.evidence.tail ∧
    { s.create d with evidence := s.evidence } = s) ∧
  ∀ (s : State) (t : Instant), ∃ u : State, exec (.powerOn t) s = .next u ∧ u.evidence.sequence = 0

/-- A grant to the Evidence Unit forms one burst, up to 32 records and up to the region's last slot. For each record of it whose
slot holds an unacknowledged record the tail moves on by one, the lost count goes up by one, the record carries LOSS_BEFORE, and a
cursor at the tail moves with it, counted as skipped. The unacknowledged records, with the burst, keep within the capacity, and the
cursor between tail and head. Beside the evidence only the port and the rotation positions change, and the attention lines are
evaluated afresh. -/
def Obligations.EvidenceBurstGranted : Prop :=
  ∀ (s : State) (d : Decision), s.powered = true → s.port = none → s.decision = some d → d.granted = .evidence →
    let c := s.settings.regionCount * 1024
    let n := min 32 (min s.evidence.fifo.length (c - s.evidence.head.toNat % c))
    0 < c → c ≤ 131072 → s.evidence.unacknowledged ≤ c →
    (s.evidence.cursor - s.evidence.tail).toNat ≤ s.evidence.unacknowledged →
    let e := s.evidence
    let overwritten := e.unacknowledged + n - c
    let behind := (e.cursor - e.tail).toNat
    let after : Evidence :=
      { e with
        tail := e.tail + BitVec.ofNat 32 overwritten
        lost := if overwritten = 0 then e.lost else min 4294967295 (e.lost + overwritten)
        cursor := if behind < overwritten then e.tail + BitVec.ofNat 32 overwritten else e.cursor
        skipped := if behind < overwritten then min 4294967295 (e.skipped + (overwritten - behind)) else e.skipped
        fifo := e.fifo.mapIdx fun i r => if i < n ∧ c ≤ e.unacknowledged + i then { r with lossBefore := true } else r }
    exec .arbiterGrant s = .next
      { s with highPos := d.highPos, lowPos := d.lowPos, port := some (.evidence n), evidence := after }.refresh ∧
      after.unacknowledged + n ≤ c ∧ (after.cursor - after.tail).toNat ≤ after.unacknowledged

/-- A completed evidence burst stores its records' bytes from the head's slot on, moves the head past them and takes them from the
FIFO, and no other byte of record memory changes. -/
def Obligations.EvidenceBurstStores : Prop :=
  ∀ (s : State) (n : Nat), s.port = some (.evidence n) → s.restarting = none →
    let base := s.settings.regionFirst * 131072 + s.evidence.head.toNat % (s.settings.regionCount * 1024) * 128
    let bytes := (s.evidence.fifo.take n).flatMap EvidenceRecord.bytes
    ∃ m : List Host.Cell,
      exec .evidenceBurstComplete s = .next
        { s with
          port := none
          memory := m
          evidence := { s.evidence with head := s.evidence.head + BitVec.ofNat 32 n, fifo := s.evidence.fifo.drop n } }.refresh ∧
      ∀ a : Nat, readByte m a =
        if base ≤ a ∧ a < base + bytes.length then bytes.getD (a - base) 0 else readByte s.memory a

/-- EVID-READ: BAD_ARG for a body or an offset out of range, SHORT at once with nothing to read (the automation link's skipped count
is then cleared), and otherwise the read is fixed, fetched, and holds its link. -/
def Obligations.EvidReadTaken : Prop :=
  ∀ (s : State) (l : Link) (r : Request), Serving s l 16 r →
    (readEvidRead l r.body = none → exec (.evidRead l) s = .next (s.answered l r .badArg .none).refresh) ∧
    ∀ offset count : Nat, readEvidRead l r.body = some (offset, count) →
      let e := s.evidence
      let fetched := fun (first : BitVec 32) (fixed : Nat) =>
        ((s.takeRequest l).modLink l fun p =>
          { p with held := some r.tag, fetches := p.fetches ++ [.evid r.tag first fixed count false] }).refresh
      (l = .compliance →
        (0 < min count (e.unacknowledged - offset) →
          exec (.evidRead l) s = .next (fetched (e.tail + BitVec.ofNat 32 offset) (min count (e.unacknowledged - offset)))) ∧
        (min count (e.unacknowledged - offset) = 0 →
          exec (.evidRead l) s = .next
            (s.answered l r .short (.evidRead none [] e.head e.tail e.unacknowledged e.lost none)).refresh)) ∧
      (l = .automation →
        (offset ≠ 0 → exec (.evidRead l) s = .next (s.answered l r .badArg .none).refresh) ∧
        (offset = 0 → 0 < min count e.backlog →
          exec (.evidRead l) s = .next (fetched e.cursor (min count e.backlog))) ∧
        (offset = 0 → min count e.backlog = 0 →
          exec (.evidRead l) s = .next
            ({ s with evidence := { e with skipped := 0 } }.answered l r .short
              (.evidRead none [] e.head e.tail e.unacknowledged e.lost (some (e.cursor, e.skipped)))).refresh))

/-- The completion of an evidence fetch returns the fixed records that are not before the tail, whole and in order; on the
automation link the cursor then stands just past the last one and the skipped count is 0 (when the cursor moves is log entry 11),
and nothing else of the evidence changes. That a position is before the tail when the tail is less than half of 2^32 past it is the
model's reading (log entry 34). -/
def Obligations.EvidFetchAnswered : Prop :=
  ∀ (s : State) (l : Link) (tag : Tag) (first : BitVec 32) (fixed asked : Nat) (cleared abandoned : Bool),
    s.port = some (.read l (.evid tag first fixed asked cleared) abandoned) → s.restarting = none →
    let e := s.evidence
    let gone := if (e.tail - first).toNat < 2147483648 then min fixed (e.tail - first).toNat else 0
    let start := first + BitVec.ofNat 32 gone
    let count := fixed - gone
    (abandoned = true → exec .evidReadFetchComplete s = .next { s with port := none }.refresh) ∧
    (abandoned = false →
      ∃ (u : State) (x : Response), exec .evidReadFetchComplete s = .next u ∧
        (u.link l).responses = (s.link l).responses ++ [x] ∧ x.tag = tag ∧ x.code = 16 ∧
        (u.link l).held = (if (s.link l).held = some tag then none else (s.link l).held) ∧
        ((cleared = true ∨ count = 0) →
          x.status = .short ∧ (∃ i j : BitVec 32, ∃ k m : Nat, ∃ a : Option (BitVec 32 × Nat), x.body = .evidRead none [] i j k m a) ∧
          u.evidence = if l = .automation then { e with skipped := 0 } else e) ∧
        (cleared = false → 0 < count →
          x.status = (if count = asked then .ok else .short) ∧
          (∃ a : Option (BitVec 32 × Nat), x.body =
            .evidRead (some start)
              ((List.range count).map fun i => readBytes s.memory (s.slotAddress (start + BitVec.ofNat 32 i)) 128)
              e.head e.tail e.unacknowledged e.lost a) ∧
          (l = .compliance → u.evidence = e) ∧
          (l = .automation → u.evidence.skipped = 0 ∧ { u.evidence with cursor := e.cursor, skipped := e.skipped } = e ∧
            u.evidence.cursor =
              if (start + BitVec.ofNat 32 count - e.tail).toNat ≤ (e.cursor - e.tail).toNat then e.cursor
              else start + BitVec.ofNat 32 count)) ∧
        { u with port := s.port, evidence := s.evidence, links := s.links } = s)

/-- EVID-ACK, row by row: BAD_ARG and STALE change nothing; OK advances the tail, and takes along an automation cursor it passes,
with the skipped count. -/
def Obligations.EvidAckTaken : Prop :=
  ∀ (s : State) (r : Request), Serving s .compliance 17 r →
    (readEvidAck r.body = none → exec (.evidAck .compliance) s = .next (s.answered .compliance r .badArg .none).refresh) ∧
    ∀ (n : Nat) (expected : Option (BitVec 32)), readEvidAck r.body = some (n, expected) →
      let e := s.evidence
      let tail := e.tail + BitVec.ofNat 32 n
      let behind := (e.cursor - e.tail).toNat
      let after : Evidence :=
        if behind < n then { e with tail := tail, cursor := tail, skipped := min 4294967295 (e.skipped + (n - behind)) }
        else { e with tail := tail }
      ((∃ x : BitVec 32, expected = some x ∧ x ≠ e.tail) →
        exec (.evidAck .compliance) s = .next (s.answered .compliance r .stale (.evidStale e.tail)).refresh) ∧
      ((∀ x : BitVec 32, expected = some x → x = e.tail) →
        ((e.head - e.tail).toNat < n →
          exec (.evidAck .compliance) s = .next (s.answered .compliance r .badArg .none).refresh) ∧
        (n ≤ (e.head - e.tail).toNat →
          exec (.evidAck .compliance) s = .next
            ({ s with evidence := after }.answered .compliance r .ok
              (.evidAck tail (e.head - tail).toNat e.lost)).refresh))

/-- Every evidence record is 128 bytes; every frame record is a multiple of 16 bytes, the least that holds its header and parts, and
its first two bytes spell that length. -/
def Obligations.RecordLayouts : Prop :=
  (∀ r : EvidenceRecord, r.bytes.length = 128) ∧
    ∀ c : RecordContent, c.bytes.length = c.length ∧ 16 ∣ c.length ∧ 32 + c.parts.length ≤ c.length ∧
      c.length < 32 + c.parts.length + 16 ∧ (c.length < 65536 → unLe (c.bytes.take 2) = c.length)

/-! ### Message links (chapter 10) -/

/-- A well-formed request is accepted under its tag, or discarded with LINK_ERROR for a duplicate tag or as one too many (for one
that is both, DUPLICATE_TAG is the model's choice, log entry 31); any other message raises LINK_ERROR with its reason; with the
reset line asserted a message is discarded. A request as laid out is well formed. A run of undelimited bytes raises LINK_ERROR with
reason MALFORMED on its own link, and a response sent leaves the head of its queue. -/
def Obligations.MessageReceived : Prop :=
  (∀ (s : State) (l : Link) (bytes : Bytes), s.powered = true →
    let error := fun reason : LinkErrorReason =>
      (s.modLink l fun p => { p with flags := { p.flags with linkError := true }, reason := some reason }).refresh
    ((s.link l).resetLine = true → exec (.messageReceived l bytes) s = .next s) ∧
    ((s.link l).resetLine = false →
      (∀ reason : LinkErrorReason, readMessage bytes = .discard reason →
        exec (.messageReceived l bytes) s = .next (error reason)) ∧
      ∀ r : Request, readMessage bytes = .request r →
        (r.tag ∈ (s.link l).outstanding → exec (.messageReceived l bytes) s = .next (error .duplicateTag)) ∧
        (r.tag ∉ (s.link l).outstanding → 8 ≤ (s.link l).outstanding.length →
          exec (.messageReceived l bytes) s = .next (error .tooMany)) ∧
        (r.tag ∉ (s.link l).outstanding → (s.link l).outstanding.length < 8 →
          exec (.messageReceived l bytes) s = .next
            (s.modLink l fun p =>
              { p with outstanding := p.outstanding ++ [r.tag], requests := p.requests ++ [r] }).refresh))) ∧
  (∀ (tag : Tag) (code status : Byte) (body : Bytes), body.length ≤ 4352 →
    let front := 1 :: tag :: code :: status :: (le 2 body.length ++ body)
    readMessage (front ++ le 2 (crc16 front).toNat) = .request { tag := tag, code := code, body := body }) ∧
  ∀ (s : State) (l : Link), s.powered = true → (s.link l).resetLine = false →
    (∀ bytes : Bytes, exec (.linkBytesUndelimited l bytes) s = .next
      (s.modLink l fun p =>
        { p with flags := { p.flags with linkError := true }, reason := some .malformed }).refresh) ∧
    ∀ (x : Response) (rest : List Response), (s.link l).responses = x :: rest →
      exec (.responseSent l) s = .next (s.modLink l fun p => { p with responses := rest }).refresh

/-- The checks every request passes, in order: BUSY during loading, BAD_ARG for a code that names no request, RIGHTS for a link that
may not make it, BAD_ARG for a body that does not fit; each changes nothing else. A command whose request is not at the head does
nothing (log entry 1). That a set with a bit that names no member does not fit is the model's choice (log entry 35). -/
def Obligations.RequestChecks : Prop :=
  ∀ (s : State) (l : Link) (r : Request), Waits s l r →
    (∀ (i : Instr) (code : Byte), requestOf i = some (l, code) →
      (r.code ≠ code → exec i s = .next s) ∧
      (r.code = code →
        (s.loading = true → code ≠ 25 → exec i s = .next (s.answered l r .busy .none).refresh) ∧
        (s.loading = false →
          (mayMake s.settings.timeAuthority l code = false → exec i s = .next (s.answered l r .rights .none).refresh) ∧
          (mayMake s.settings.timeAuthority l code = true → fitsCode l code r.body = false →
            exec i s = .next (s.answered l r .badArg .none).refresh)))) ∧
    ((1 ≤ r.code.toNat ∧ r.code.toNat ≤ 25) → exec (.unknownRequestCode l) s = .next s) ∧
    (¬(1 ≤ r.code.toNat ∧ r.code.toNat ≤ 25) →
      exec (.unknownRequestCode l) s = .next
        (s.answered l r (if s.loading then .busy else .badArg) .none).refresh)

/-- FLAGS-CLEAR clears the named flags and their details on its own link and answers the set as it stood; MASK-SET replaces its
link's mask whole and answers the old one and the new. -/
def Obligations.FlagsClearedMaskSet : Prop :=
  ∀ (s : State) (l : Link) (r : Request),
    (∀ x : FlagSet, Serving s l 23 r → readFlagsClear r.body = some x →
      ∃ g : FlagSet, (∀ y : Flag, g.has y = ((s.link l).flags.has y && !x.has y)) ∧
        exec (.flagsClear l) s = .next
          ((s.modLink l fun p =>
              { p with
                flags := g
                reason := if x.linkError then none else p.reason
                cause := if x.settings then none else p.cause }).answered l r .ok (.flagsClear (s.link l).flags)).refresh) ∧
    ∀ m : Mask, Serving s l 24 r → readMaskSet r.body = some m →
      exec (.maskSet l) s = .next
        ((s.modLink l fun p => { p with mask := m }).answered l r .ok (.maskSet (s.link l).mask m)).refresh

/-- A link reset, by request or by the rising edge of the reset line, drops its link's requests, responses and deferred reads,
clears its flags, gives it its default mask, cancels its pending time set and gives up its reads, on the port and in its fetch queue
(that those waiting stay there, to be granted and discarded, is the model's reading: log entry 32); the other link's port is
untouched. Where the attention line ends is the model's reading (log entry 19), and no clause here says it of a LINK-RESET request.
That a rise of a line already asserted is no edge, and changes nothing, is the model's choice (log entry 1). -/
def Obligations.LinkResets : Prop :=
  ∀ (s : State) (l m : Link), m ≠ l → s.powered = true →
    let cleared := fun (p : LinkPort) (resetLine : Bool) (responses : List Response) =>
      { outstanding := [], requests := [], held := none, responses := responses, fetches := p.fetches,
        givenUp := p.fetches.length, deferred := [], flags := noFlags, reason := none, cause := none,
        mask := if s.loading then emptyMask else s.settings.masks.get l,
        attention := p.attention, resetLine := resetLine : LinkPort }
    let after := fun u : State =>
      { u.link m with attention := (s.link m).attention } = s.link m ∧
      u.time = { s.time with pendingSet := s.time.pendingSet.filter fun p => p.link != l } ∧
      u.evidence = (if l = .automation then { s.evidence with cursor := s.evidence.tail, skipped := 0 } else s.evidence) ∧
      u.port = s.port.map (Burst.giveUp l) ∧
      (l = .automation → u.save = s.save ∧ u.restarting = s.restarting) ∧
      (l = .compliance → u.save = s.save.map (fun v => { v with tag := none }) ∧
        u.restarting = s.restarting.map fun v => { v with tag := none }) ∧
      { u with time := s.time, evidence := s.evidence, port := s.port, save := s.save, restarting := s.restarting,
               links := s.links } = s
    (∀ r : Request, Waits s l r → r.code = 25 → r.body = [] →
      ∃ u : State, exec (.linkReset l) s = .next u ∧ after u ∧
        { u.link l with attention := (s.link l).attention } =
          cleared (s.link l) (s.link l).resetLine [{ tag := r.tag, code := 25, status := .ok, body := .none }]) ∧
    ((s.link l).resetLine = false →
      ∃ u : State, exec (.linkResetLineRise l) s = .next u ∧ after u ∧ (u.link l).attention = false ∧
        { u.link l with attention := (s.link l).attention } = cleared (s.link l) true []) ∧
    ((s.link l).resetLine = true →
      exec (.linkResetLineRise l) s = .next s ∧
      exec (.linkResetLineFall l) s = .next (s.modLink l fun p => { p with resetLine := false }).refresh)

/-! ### Stored settings, power and restart (chapter 11) -/

/-- Power-on gives every block its power-on state with loading in progress, whatever went before; serial flash keeps its content
unless a save was being written. Power lost leaves the same behind, without power: that a power-on is taken in any state, what a
loss of power leaves, and that record memory and the reset lines' levels are as they are here, are the model's readings (log entry
13). -/
def Obligations.PowerTransitions : Prop :=
  ∀ (s : State) (t : Instant),
    let quiet : Loud :=
      { filters := Five.all restFilter, gathered := 0, sums := Five.all { mantissa := 0, places := 0 }, history := [],
        momentary := -12000, shortTerm := -12000, seg := none, brk := none, taps := Six.all (List.replicate 8 0), incomplete := 0 }
    let atRest := fun (u : State) (t : Instant) =>
      u.flash = (if s.save.isSome then .incomplete else s.flash) ∧ u.save = none ∧ u.restarting = none ∧ u.port = none ∧
      (∀ o : OutletId, u.outlet o =
        { intake := { state := .off, rfn := 0, expected := none, lossTimer := 0, lostTicks := 0, lastArrival := none }
          sched := { queue := [], armed := none, current := none, brk := none, waiting := none }
          loud := quiet
          subs := { showing := false, timer := .stopped, limit := none, gap := none, record := none }
          verdict :=
            { segSlot := none, brkSlot := none, counter := none, excursions := 0, gapOpen := false, shortTermOver := false,
              line := false }
          writer := { mode := .idle, fifo := [], placed := none, dropRun := none, suspendRun := none, writePos := none } }) ∧
      u.time =
        { air := { seconds := 0, frame := 0 }, ref := .unset, previous := none, qualification := 0, holdoverTicks := 0,
          oscillator := some (t + 40000000), lastPulse := none, lastSecond := none, pulseTick := none, pendingSet := none } ∧
      (∀ k : CueLine, u.cue k = { count := 0, first := none, last := none, acceptedAt := none }) ∧
      u.profiles.slot0 = none ∧ u.profiles.slot1 = none ∧ (∀ n : Nat, pageAt u.directory n = emptyPage) ∧ u.pageSeq = 0 ∧
      u.highPos = 0 ∧ u.lowPos = 0 ∧ u.memory = [] ∧ u.holds = [] ∧ u.holdCounter = 0 ∧
      u.evidence =
        { sequence := 0, fifo := [], lossPending := false, head := 0, tail := 0, cursor := 0, skipped := 0, lost := 0 } ∧
      ∀ l : Link, u.link l =
        { outstanding := [], requests := [], held := none, responses := [], fetches := [], givenUp := 0, deferred := [],
          flags := noFlags, reason := none, cause := none, mask := emptyMask, attention := false, resetLine := (s.link l).resetLine }
    (∃ u : State, exec (.powerOn t) s = .next u ∧ u.powered = true ∧ u.loading = true ∧ atRest u t) ∧
    (s.powered = true → ∃ u : State, exec .powerLoss s = .next u ∧ u.powered = false ∧ u.loading = false ∧ atRest u 0)

/-- Loading completes: the stored image where it is valid, and otherwise the default image with SETTINGS raised for DEFAULTS,
becomes the copy and the settings in force; the profile is version 1 in slot 0, and each enabled outlet waits. That flash holds the
bytes of a SETTINGS-SAVE body with their CRC-32, and is read as such a body, is the model's choice (log entry 33), and so is that a
default mask with a bit that names no member is refused (log entry 35). -/
def Obligations.LoadCompletes : Prop :=
  ∀ s : State, s.powered = true → s.loading = true →
    let valid : Option Image :=
      match s.flash with
      | .incomplete => none
      | .stored bytes crc =>
        if crc32 bytes = crc then
          match readImage bytes with
          | some g => if g.refusal = none then some g else none
          | none => none
        else none
    let g := valid.getD defaultImage
    ∃ u : State, exec .settingsLoadComplete s = .next u ∧ u.loading = false ∧ u.settings = g ∧ u.imageCopy = g ∧
      u.flash = s.flash ∧
      u.profiles = { slot0 := some { version := 1, profile := g.profile }, slot1 := none, latestIsOne := false } ∧
      (∀ o : OutletId, u.outlet o =
        { s.outlet o with
          intake := { (s.outlet o).intake with state := if (g.outlets[o]).enabled then .waiting else .off } }) ∧
      (∀ l : Link,
        let p := { s.link l with mask := g.masks.get l, attention := (u.link l).attention }
        u.link l =
          if valid = none then { p with flags := { p.flags with settings := true }, cause := some .defaults } else p) ∧
      u.evidence = s.evidence.create { outlet := none, stamp := s.time.air, body := .profileApplied 1 none false } ∧
      { u with loading := s.loading, settings := s.settings, imageCopy := s.imageCopy, profiles := s.profiles,
               outlets := s.outlets, links := s.links, evidence := s.evidence } = s

/-- SETTINGS-SAVE: BAD_ARG with the reason for an image that is refused, BUSY while a save or a restart is in progress, and
otherwise a save in flight; its completion replaces flash and the image copy, raises SETTINGS for SAVED on both links and answers OK
unless its link was reset. That flash then holds the bytes of the request's body with their CRC-32 is the model's choice (log entry
33). So is that a default mask with a bit that names no member is refused with RANGE (log entry 35). -/
def Obligations.SettingsSaved : Prop :=
  (∀ (s : State) (r : Request), Serving s .compliance 18 r →
    (readImage r.body = none →
      exec (.settingsSave .compliance) s = .next (s.answered .compliance r .badArg (.imageRefused .range)).refresh) ∧
    ∀ g : Image, readImage r.body = some g →
      (∀ x : ImageReason, g.refusal = some x →
        exec (.settingsSave .compliance) s = .next (s.answered .compliance r .badArg (.imageRefused x)).refresh) ∧
      (g.refusal = none →
        ((s.save.isSome = true ∨ s.restarting.isSome = true) →
          exec (.settingsSave .compliance) s = .next (s.answered .compliance r .busy .none).refresh) ∧
        (s.save = none → s.restarting = none →
          exec (.settingsSave .compliance) s = .next
            { s.takeRequest .compliance with
              save := some { image := g, bytes := r.body, tag := some r.tag } }.refresh))) ∧
  ∀ (s : State) (v : Save), s.powered = true → s.save = some v →
    let saved := { s with flash := .stored v.bytes (crc32 v.bytes), imageCopy := v.image, save := none }.raiseSettings .saved
    (v.tag = none → exec .settingsSaveComplete s = .next saved.refresh) ∧
    ∀ tag : Tag, v.tag = some tag → exec .settingsSaveComplete s = .next (saved.respond .compliance tag 18 .ok .none).refresh

/-- A restart that keeps record state. A reload puts the image copy in force, except for its initial profile. Every outlet's
schedule and measurement take their restart values and the outlet waits where it is enabled; deferred reads are ended; both
rotations stand at their start. Pages, holds, the evidence ring and each FIFO are kept: a WRITING writer gets a close mark, as an
IDLE one with records does, and reaches it at once with its FIFO empty (log entry 21), which closes its OPEN page; automatic holds
and the records of the closes come behind what stood, and RESTART last. It is answered OK. -/
def Obligations.RestartKeepsRecords : Prop :=
  ∀ (s : State) (r : Request) (reload : Bool), Serving s .compliance 19 r → readRestart r.body = some reload →
    s.restarting = none → (reload = true → s.save = none) → s.clearing reload = false →
    let settings := if reload then { s.imageCopy with profile := s.settings.profile } else s.settings
    let notes : Vector RestartNote 8 := s.outlets.map fun t =>
      { pending := t.sched.queue.length, armed := t.sched.armed.map fun a => a.decl.id,
        closed := t.sched.current.map fun c => c.decl.id }
    let aborted := (s.link .automation).deferred.length + (s.link .compliance).deferred.length
    ∃ (u : State) (q : BitVec 32), exec (.restart .compliance) s = .next u ∧ u.settings = settings ∧ u.restarting = none ∧
      (∀ o : OutletId,
        (u.outlet o).intake =
          { state := if (settings.outlets[o]).enabled then .waiting else .off, rfn := (s.outlet o).intake.rfn, expected := none,
            lossTimer := 0, lostTicks := 0, lastArrival := none } ∧
        (u.outlet o).sched = { queue := [], armed := none, current := none, brk := none, waiting := none } ∧
        (u.outlet o).loud = restLoud ∧
        (u.outlet o).subs = { showing := false, timer := .stopped, limit := none, gap := none, record := none } ∧
        (u.outlet o).verdict =
          { segSlot := none, brkSlot := none, counter := none, excursions := 0, gapOpen := false, shortTermOver := false,
            line := false } ∧
        (let w := (s.outlet o).writer
         (u.outlet o).writer =
          match w.mode with
          | .writing => if w.fifo = [] then { w with mode := .idle } else { w with fifo := w.fifo ++ [.closeMark] }
          | .idle =>
            if w.fifo.any (fun i => match i with | .record _ => true | .closeMark => false) then
              { w with fifo := w.fifo ++ [.closeMark] }
            else w
          | .suspended => w)) ∧
      (directoryWf s.directory = true →
        (∀ n : Nat,
          let e := pageAt s.directory n
          let x := pageAt u.directory n
          x = { e with state := x.state, holdCount := x.holdCount } ∧ e.holdCount ≤ x.holdCount ∧
            (x.state = e.state ∨ e.state = .opened ∧ x.state = .closed)) ∧
        ∀ (o : OutletId) (n : Nat) (e : PageEntry), (s.outlet o).writer.mode = .writing → (s.outlet o).writer.fifo = [] →
          s.openPage o = some (n, e) → (pageAt u.directory n).state = .closed) ∧
      (∃ more : List Hold, u.holds = s.holds ++ more) ∧
      (∃ more : List EvidenceRecord, u.evidence.fifo = s.evidence.fifo ++ more) ∧
      { u.evidence with
        sequence := s.evidence.sequence, fifo := s.evidence.fifo, lossPending := s.evidence.lossPending,
        lost := s.evidence.lost } = s.evidence ∧
      u.evidence.sequence = q + 1 ∧
      (u.evidence.lossPending = false → u.evidence.fifo.getLast?.map (fun x => (x.draft, x.sequence)) = some
        ({ outlet := none, stamp := s.time.air,
           body := .restart reload false notes (settings.outlets.map fun t => t.enabled) 0 0 aborted }, q)) ∧
      (∀ l : Link, (u.link l).deferred = [] ∧ (u.link l).fetches = (s.link l).fetches ∧ (u.link l).mask = (s.link l).mask) ∧
      u.highPos = 0 ∧ u.lowPos = 0 ∧
      (u.link .compliance).responses.getLast? = some
        { tag := r.tag, code := 19, status := .ok, body := .restart reload false q } ∧
      { u with settings := s.settings, outlets := s.outlets, directory := s.directory, holds := s.holds,
               holdCounter := s.holdCounter, evidence := s.evidence, links := s.links, highPos := s.highPos, lowPos := s.lowPos,
               free := s.free } = s

/-- A clearing reload with the port free empties the directory, the holds, the evidence ring and the writers; RESTART is then the
one record, with sequence 0. With a burst in progress the restart waits, every outlet OFF, its link held and unanswered, and the
completion of that burst takes the rest of it: what happens during the wait is the model's reading (log entry 20). -/
def Obligations.RestartClearsRecords : Prop :=
  let cleared := fun (u : State) (air : AirTime) (notes : Vector RestartNote 8) (aborted : Nat) =>
    (∀ n : Nat, pageAt u.directory n = emptyPage) ∧ u.holds = [] ∧ u.restarting = none ∧ u.highPos = 0 ∧ u.lowPos = 0 ∧
    (∃ removed discarded : Nat, u.evidence =
      { sequence := 1, lossPending := false, head := 0, tail := 0, cursor := 0, skipped := 0, lost := 0,
        fifo := [{ draft := { outlet := none, stamp := air,
                              body := .restart true true notes (u.settings.outlets.map fun t => t.enabled) removed discarded
                                aborted }
                   sequence := 0, lossBefore := false }] }) ∧
    ∀ o : OutletId,
      (u.outlet o).writer =
        { mode := .idle, fifo := [], placed := none, dropRun := none, suspendRun := none, writePos := none } ∧
      (u.outlet o).intake.state = if (u.settings.outlets[o]).enabled then .waiting else .off
  (∀ (s : State) (r : Request), Serving s .compliance 19 r → readRestart r.body = some true →
    s.restarting = none → s.save = none → s.clearing true = true →
    let notes : Vector RestartNote 8 := s.outlets.map fun t =>
      { pending := t.sched.queue.length, armed := t.sched.armed.map fun a => a.decl.id,
        closed := t.sched.current.map fun c => c.decl.id }
    let aborted := (s.link .automation).deferred.length + (s.link .compliance).deferred.length
    (s.port = none →
      ∃ u : State, exec (.restart .compliance) s = .next u ∧
        u.settings = { s.imageCopy with profile := s.settings.profile } ∧ cleared u s.time.air notes aborted ∧
        u.pageSeq = s.pageSeq ∧ u.profiles = s.profiles ∧ u.time = s.time ∧ u.cues = s.cues ∧ u.memory = s.memory ∧
        (u.link .compliance).responses.getLast? = some
          { tag := r.tag, code := 19, status := .ok, body := .restart true true 0 }) ∧
    (s.port.isSome = true →
      ∃ u : State, exec (.restart .compliance) s = .next u ∧
        u.restarting = some { reload := true, tag := some r.tag, notes := notes, aborted := aborted } ∧
        u.settings = s.settings ∧ u.port = s.port ∧ (u.link .compliance).held = some r.tag ∧
        (∀ o : OutletId, (u.outlet o).intake.state = .off ∧ u.current o = none) ∧
        ∀ x ∈ (u.link .compliance).responses, x.code = 19 → x ∈ (s.link .compliance).responses)) ∧
  ∀ (s t : State) (p : RestartProgress) (c : Instr),
    c ∈ [.recordBurstComplete, .recordWriteComplete, .evidenceBurstComplete, .pageReadFetchComplete, .evidReadFetchComplete] →
    s.restarting = some p → p.reload = true → exec c { s with restarting := none } = .next t → s.port.isSome = true →
    t.port = none →
    ∃ u : State, exec c s = .next u ∧ u.settings = { s.imageCopy with profile := s.settings.profile } ∧ u.port = none ∧
      cleared u s.time.air p.notes p.aborted ∧
      u.pageSeq = s.pageSeq ∧ u.profiles = s.profiles ∧ u.time = s.time ∧ u.cues = s.cues ∧ u.memory = t.memory ∧
      (∀ tag : Tag, p.tag = some tag →
        (u.link .compliance).held = none ∧
        (u.link .compliance).responses = (t.link .compliance).responses ++
          [{ tag := tag, code := 19, status := .ok, body := .restart true true 0 }]) ∧
      (p.tag = none → (u.link .compliance).responses = (t.link .compliance).responses)
end

