-- ==== Sys2Proof/Laws/State.lean ====
section
/-! SUPPORT. For each update of the state, the fields it leaves as they are. -/

namespace Sys2Proof.Machine

/-! ### State.modLink -/

@[simp] theorem State.modLink_powered (s : State) (l : Link) (f : LinkPort → LinkPort) : (s.modLink l f).powered = s.powered := rfl
@[simp] theorem State.modLink_loading (s : State) (l : Link) (f : LinkPort → LinkPort) : (s.modLink l f).loading = s.loading := rfl
@[simp] theorem State.modLink_flash (s : State) (l : Link) (f : LinkPort → LinkPort) : (s.modLink l f).flash = s.flash := rfl
@[simp] theorem State.modLink_imageCopy (s : State) (l : Link) (f : LinkPort → LinkPort) : (s.modLink l f).imageCopy = s.imageCopy := rfl
@[simp] theorem State.modLink_settings (s : State) (l : Link) (f : LinkPort → LinkPort) : (s.modLink l f).settings = s.settings := rfl
@[simp] theorem State.modLink_save (s : State) (l : Link) (f : LinkPort → LinkPort) : (s.modLink l f).save = s.save := rfl
@[simp] theorem State.modLink_restarting (s : State) (l : Link) (f : LinkPort → LinkPort) : (s.modLink l f).restarting = s.restarting := rfl
@[simp] theorem State.modLink_time (s : State) (l : Link) (f : LinkPort → LinkPort) : (s.modLink l f).time = s.time := rfl
@[simp] theorem State.modLink_cues (s : State) (l : Link) (f : LinkPort → LinkPort) : (s.modLink l f).cues = s.cues := rfl
@[simp] theorem State.modLink_outlets (s : State) (l : Link) (f : LinkPort → LinkPort) : (s.modLink l f).outlets = s.outlets := rfl
@[simp] theorem State.modLink_profiles (s : State) (l : Link) (f : LinkPort → LinkPort) : (s.modLink l f).profiles = s.profiles := rfl
@[simp] theorem State.modLink_directory (s : State) (l : Link) (f : LinkPort → LinkPort) : (s.modLink l f).directory = s.directory := rfl
@[simp] theorem State.modLink_pageSeq (s : State) (l : Link) (f : LinkPort → LinkPort) : (s.modLink l f).pageSeq = s.pageSeq := rfl
@[simp] theorem State.modLink_highPos (s : State) (l : Link) (f : LinkPort → LinkPort) : (s.modLink l f).highPos = s.highPos := rfl
@[simp] theorem State.modLink_lowPos (s : State) (l : Link) (f : LinkPort → LinkPort) : (s.modLink l f).lowPos = s.lowPos := rfl
@[simp] theorem State.modLink_port (s : State) (l : Link) (f : LinkPort → LinkPort) : (s.modLink l f).port = s.port := rfl
@[simp] theorem State.modLink_memory (s : State) (l : Link) (f : LinkPort → LinkPort) : (s.modLink l f).memory = s.memory := rfl
@[simp] theorem State.modLink_holds (s : State) (l : Link) (f : LinkPort → LinkPort) : (s.modLink l f).holds = s.holds := rfl
@[simp] theorem State.modLink_holdCounter (s : State) (l : Link) (f : LinkPort → LinkPort) : (s.modLink l f).holdCounter = s.holdCounter := rfl
@[simp] theorem State.modLink_evidence (s : State) (l : Link) (f : LinkPort → LinkPort) : (s.modLink l f).evidence = s.evidence := rfl
@[simp] theorem State.modLink_free (s : State) (l : Link) (f : LinkPort → LinkPort) : (s.modLink l f).free = s.free := rfl
@[simp] theorem State.modLink_pending (s : State) (l : Link) (f : LinkPort → LinkPort) : (s.modLink l f).pending = s.pending := rfl

/-! ### State.modLinks -/

@[simp] theorem State.modLinks_powered (s : State) (f : LinkPort → LinkPort) : (s.modLinks f).powered = s.powered := rfl
@[simp] theorem State.modLinks_loading (s : State) (f : LinkPort → LinkPort) : (s.modLinks f).loading = s.loading := rfl
@[simp] theorem State.modLinks_flash (s : State) (f : LinkPort → LinkPort) : (s.modLinks f).flash = s.flash := rfl
@[simp] theorem State.modLinks_imageCopy (s : State) (f : LinkPort → LinkPort) : (s.modLinks f).imageCopy = s.imageCopy := rfl
@[simp] theorem State.modLinks_settings (s : State) (f : LinkPort → LinkPort) : (s.modLinks f).settings = s.settings := rfl
@[simp] theorem State.modLinks_save (s : State) (f : LinkPort → LinkPort) : (s.modLinks f).save = s.save := rfl
@[simp] theorem State.modLinks_restarting (s : State) (f : LinkPort → LinkPort) : (s.modLinks f).restarting = s.restarting := rfl
@[simp] theorem State.modLinks_time (s : State) (f : LinkPort → LinkPort) : (s.modLinks f).time = s.time := rfl
@[simp] theorem State.modLinks_cues (s : State) (f : LinkPort → LinkPort) : (s.modLinks f).cues = s.cues := rfl
@[simp] theorem State.modLinks_outlets (s : State) (f : LinkPort → LinkPort) : (s.modLinks f).outlets = s.outlets := rfl
@[simp] theorem State.modLinks_profiles (s : State) (f : LinkPort → LinkPort) : (s.modLinks f).profiles = s.profiles := rfl
@[simp] theorem State.modLinks_directory (s : State) (f : LinkPort → LinkPort) : (s.modLinks f).directory = s.directory := rfl
@[simp] theorem State.modLinks_pageSeq (s : State) (f : LinkPort → LinkPort) : (s.modLinks f).pageSeq = s.pageSeq := rfl
@[simp] theorem State.modLinks_highPos (s : State) (f : LinkPort → LinkPort) : (s.modLinks f).highPos = s.highPos := rfl
@[simp] theorem State.modLinks_lowPos (s : State) (f : LinkPort → LinkPort) : (s.modLinks f).lowPos = s.lowPos := rfl
@[simp] theorem State.modLinks_port (s : State) (f : LinkPort → LinkPort) : (s.modLinks f).port = s.port := rfl
@[simp] theorem State.modLinks_memory (s : State) (f : LinkPort → LinkPort) : (s.modLinks f).memory = s.memory := rfl
@[simp] theorem State.modLinks_holds (s : State) (f : LinkPort → LinkPort) : (s.modLinks f).holds = s.holds := rfl
@[simp] theorem State.modLinks_holdCounter (s : State) (f : LinkPort → LinkPort) : (s.modLinks f).holdCounter = s.holdCounter := rfl
@[simp] theorem State.modLinks_evidence (s : State) (f : LinkPort → LinkPort) : (s.modLinks f).evidence = s.evidence := rfl
@[simp] theorem State.modLinks_free (s : State) (f : LinkPort → LinkPort) : (s.modLinks f).free = s.free := rfl
@[simp] theorem State.modLinks_pending (s : State) (f : LinkPort → LinkPort) : (s.modLinks f).pending = s.pending := rfl

/-! ### State.raiseBoth -/

@[simp] theorem State.raiseBoth_powered (s : State) (x : Flag) : (s.raiseBoth x).powered = s.powered := rfl
@[simp] theorem State.raiseBoth_loading (s : State) (x : Flag) : (s.raiseBoth x).loading = s.loading := rfl
@[simp] theorem State.raiseBoth_flash (s : State) (x : Flag) : (s.raiseBoth x).flash = s.flash := rfl
@[simp] theorem State.raiseBoth_imageCopy (s : State) (x : Flag) : (s.raiseBoth x).imageCopy = s.imageCopy := rfl
@[simp] theorem State.raiseBoth_settings (s : State) (x : Flag) : (s.raiseBoth x).settings = s.settings := rfl
@[simp] theorem State.raiseBoth_save (s : State) (x : Flag) : (s.raiseBoth x).save = s.save := rfl
@[simp] theorem State.raiseBoth_restarting (s : State) (x : Flag) : (s.raiseBoth x).restarting = s.restarting := rfl
@[simp] theorem State.raiseBoth_time (s : State) (x : Flag) : (s.raiseBoth x).time = s.time := rfl
@[simp] theorem State.raiseBoth_cues (s : State) (x : Flag) : (s.raiseBoth x).cues = s.cues := rfl
@[simp] theorem State.raiseBoth_outlets (s : State) (x : Flag) : (s.raiseBoth x).outlets = s.outlets := rfl
@[simp] theorem State.raiseBoth_profiles (s : State) (x : Flag) : (s.raiseBoth x).profiles = s.profiles := rfl
@[simp] theorem State.raiseBoth_directory (s : State) (x : Flag) : (s.raiseBoth x).directory = s.directory := rfl
@[simp] theorem State.raiseBoth_pageSeq (s : State) (x : Flag) : (s.raiseBoth x).pageSeq = s.pageSeq := rfl
@[simp] theorem State.raiseBoth_highPos (s : State) (x : Flag) : (s.raiseBoth x).highPos = s.highPos := rfl
@[simp] theorem State.raiseBoth_lowPos (s : State) (x : Flag) : (s.raiseBoth x).lowPos = s.lowPos := rfl
@[simp] theorem State.raiseBoth_port (s : State) (x : Flag) : (s.raiseBoth x).port = s.port := rfl
@[simp] theorem State.raiseBoth_memory (s : State) (x : Flag) : (s.raiseBoth x).memory = s.memory := rfl
@[simp] theorem State.raiseBoth_holds (s : State) (x : Flag) : (s.raiseBoth x).holds = s.holds := rfl
@[simp] theorem State.raiseBoth_holdCounter (s : State) (x : Flag) : (s.raiseBoth x).holdCounter = s.holdCounter := rfl
@[simp] theorem State.raiseBoth_evidence (s : State) (x : Flag) : (s.raiseBoth x).evidence = s.evidence := rfl
@[simp] theorem State.raiseBoth_free (s : State) (x : Flag) : (s.raiseBoth x).free = s.free := rfl
@[simp] theorem State.raiseBoth_pending (s : State) (x : Flag) : (s.raiseBoth x).pending = s.pending := rfl

/-! ### State.raiseLinkError -/

@[simp] theorem State.raiseLinkError_powered (s : State) (l : Link) (r : LinkErrorReason) : (s.raiseLinkError l r).powered = s.powered := rfl
@[simp] theorem State.raiseLinkError_loading (s : State) (l : Link) (r : LinkErrorReason) : (s.raiseLinkError l r).loading = s.loading := rfl
@[simp] theorem State.raiseLinkError_flash (s : State) (l : Link) (r : LinkErrorReason) : (s.raiseLinkError l r).flash = s.flash := rfl
@[simp] theorem State.raiseLinkError_imageCopy (s : State) (l : Link) (r : LinkErrorReason) : (s.raiseLinkError l r).imageCopy = s.imageCopy := rfl
@[simp] theorem State.raiseLinkError_settings (s : State) (l : Link) (r : LinkErrorReason) : (s.raiseLinkError l r).settings = s.settings := rfl
@[simp] theorem State.raiseLinkError_save (s : State) (l : Link) (r : LinkErrorReason) : (s.raiseLinkError l r).save = s.save := rfl
@[simp] theorem State.raiseLinkError_restarting (s : State) (l : Link) (r : LinkErrorReason) : (s.raiseLinkError l r).restarting = s.restarting := rfl
@[simp] theorem State.raiseLinkError_time (s : State) (l : Link) (r : LinkErrorReason) : (s.raiseLinkError l r).time = s.time := rfl
@[simp] theorem State.raiseLinkError_cues (s : State) (l : Link) (r : LinkErrorReason) : (s.raiseLinkError l r).cues = s.cues := rfl
@[simp] theorem State.raiseLinkError_outlets (s : State) (l : Link) (r : LinkErrorReason) : (s.raiseLinkError l r).outlets = s.outlets := rfl
@[simp] theorem State.raiseLinkError_profiles (s : State) (l : Link) (r : LinkErrorReason) : (s.raiseLinkError l r).profiles = s.profiles := rfl
@[simp] theorem State.raiseLinkError_directory (s : State) (l : Link) (r : LinkErrorReason) : (s.raiseLinkError l r).directory = s.directory := rfl
@[simp] theorem State.raiseLinkError_pageSeq (s : State) (l : Link) (r : LinkErrorReason) : (s.raiseLinkError l r).pageSeq = s.pageSeq := rfl
@[simp] theorem State.raiseLinkError_highPos (s : State) (l : Link) (r : LinkErrorReason) : (s.raiseLinkError l r).highPos = s.highPos := rfl
@[simp] theorem State.raiseLinkError_lowPos (s : State) (l : Link) (r : LinkErrorReason) : (s.raiseLinkError l r).lowPos = s.lowPos := rfl
@[simp] theorem State.raiseLinkError_port (s : State) (l : Link) (r : LinkErrorReason) : (s.raiseLinkError l r).port = s.port := rfl
@[simp] theorem State.raiseLinkError_memory (s : State) (l : Link) (r : LinkErrorReason) : (s.raiseLinkError l r).memory = s.memory := rfl
@[simp] theorem State.raiseLinkError_holds (s : State) (l : Link) (r : LinkErrorReason) : (s.raiseLinkError l r).holds = s.holds := rfl
@[simp] theorem State.raiseLinkError_holdCounter (s : State) (l : Link) (r : LinkErrorReason) : (s.raiseLinkError l r).holdCounter = s.holdCounter := rfl
@[simp] theorem State.raiseLinkError_evidence (s : State) (l : Link) (r : LinkErrorReason) : (s.raiseLinkError l r).evidence = s.evidence := rfl
@[simp] theorem State.raiseLinkError_free (s : State) (l : Link) (r : LinkErrorReason) : (s.raiseLinkError l r).free = s.free := rfl
@[simp] theorem State.raiseLinkError_pending (s : State) (l : Link) (r : LinkErrorReason) : (s.raiseLinkError l r).pending = s.pending := rfl

/-! ### State.raiseSettings -/

@[simp] theorem State.raiseSettings_powered (s : State) (c : SettingsCause) : (s.raiseSettings c).powered = s.powered := rfl
@[simp] theorem State.raiseSettings_loading (s : State) (c : SettingsCause) : (s.raiseSettings c).loading = s.loading := rfl
@[simp] theorem State.raiseSettings_flash (s : State) (c : SettingsCause) : (s.raiseSettings c).flash = s.flash := rfl
@[simp] theorem State.raiseSettings_imageCopy (s : State) (c : SettingsCause) : (s.raiseSettings c).imageCopy = s.imageCopy := rfl
@[simp] theorem State.raiseSettings_settings (s : State) (c : SettingsCause) : (s.raiseSettings c).settings = s.settings := rfl
@[simp] theorem State.raiseSettings_save (s : State) (c : SettingsCause) : (s.raiseSettings c).save = s.save := rfl
@[simp] theorem State.raiseSettings_restarting (s : State) (c : SettingsCause) : (s.raiseSettings c).restarting = s.restarting := rfl
@[simp] theorem State.raiseSettings_time (s : State) (c : SettingsCause) : (s.raiseSettings c).time = s.time := rfl
@[simp] theorem State.raiseSettings_cues (s : State) (c : SettingsCause) : (s.raiseSettings c).cues = s.cues := rfl
@[simp] theorem State.raiseSettings_outlets (s : State) (c : SettingsCause) : (s.raiseSettings c).outlets = s.outlets := rfl
@[simp] theorem State.raiseSettings_profiles (s : State) (c : SettingsCause) : (s.raiseSettings c).profiles = s.profiles := rfl
@[simp] theorem State.raiseSettings_directory (s : State) (c : SettingsCause) : (s.raiseSettings c).directory = s.directory := rfl
@[simp] theorem State.raiseSettings_pageSeq (s : State) (c : SettingsCause) : (s.raiseSettings c).pageSeq = s.pageSeq := rfl
@[simp] theorem State.raiseSettings_highPos (s : State) (c : SettingsCause) : (s.raiseSettings c).highPos = s.highPos := rfl
@[simp] theorem State.raiseSettings_lowPos (s : State) (c : SettingsCause) : (s.raiseSettings c).lowPos = s.lowPos := rfl
@[simp] theorem State.raiseSettings_port (s : State) (c : SettingsCause) : (s.raiseSettings c).port = s.port := rfl
@[simp] theorem State.raiseSettings_memory (s : State) (c : SettingsCause) : (s.raiseSettings c).memory = s.memory := rfl
@[simp] theorem State.raiseSettings_holds (s : State) (c : SettingsCause) : (s.raiseSettings c).holds = s.holds := rfl
@[simp] theorem State.raiseSettings_holdCounter (s : State) (c : SettingsCause) : (s.raiseSettings c).holdCounter = s.holdCounter := rfl
@[simp] theorem State.raiseSettings_evidence (s : State) (c : SettingsCause) : (s.raiseSettings c).evidence = s.evidence := rfl
@[simp] theorem State.raiseSettings_free (s : State) (c : SettingsCause) : (s.raiseSettings c).free = s.free := rfl
@[simp] theorem State.raiseSettings_pending (s : State) (c : SettingsCause) : (s.raiseSettings c).pending = s.pending := rfl

/-! ### State.respond -/

@[simp] theorem State.respond_powered (s : State) (l : Link) (tag : Tag) (code : Byte) (st : Status) (b : Body) : (s.respond l tag code st b).powered = s.powered := rfl
@[simp] theorem State.respond_loading (s : State) (l : Link) (tag : Tag) (code : Byte) (st : Status) (b : Body) : (s.respond l tag code st b).loading = s.loading := rfl
@[simp] theorem State.respond_flash (s : State) (l : Link) (tag : Tag) (code : Byte) (st : Status) (b : Body) : (s.respond l tag code st b).flash = s.flash := rfl
@[simp] theorem State.respond_imageCopy (s : State) (l : Link) (tag : Tag) (code : Byte) (st : Status) (b : Body) : (s.respond l tag code st b).imageCopy = s.imageCopy := rfl
@[simp] theorem State.respond_settings (s : State) (l : Link) (tag : Tag) (code : Byte) (st : Status) (b : Body) : (s.respond l tag code st b).settings = s.settings := rfl
@[simp] theorem State.respond_save (s : State) (l : Link) (tag : Tag) (code : Byte) (st : Status) (b : Body) : (s.respond l tag code st b).save = s.save := rfl
@[simp] theorem State.respond_restarting (s : State) (l : Link) (tag : Tag) (code : Byte) (st : Status) (b : Body) : (s.respond l tag code st b).restarting = s.restarting := rfl
@[simp] theorem State.respond_time (s : State) (l : Link) (tag : Tag) (code : Byte) (st : Status) (b : Body) : (s.respond l tag code st b).time = s.time := rfl
@[simp] theorem State.respond_cues (s : State) (l : Link) (tag : Tag) (code : Byte) (st : Status) (b : Body) : (s.respond l tag code st b).cues = s.cues := rfl
@[simp] theorem State.respond_outlets (s : State) (l : Link) (tag : Tag) (code : Byte) (st : Status) (b : Body) : (s.respond l tag code st b).outlets = s.outlets := rfl
@[simp] theorem State.respond_profiles (s : State) (l : Link) (tag : Tag) (code : Byte) (st : Status) (b : Body) : (s.respond l tag code st b).profiles = s.profiles := rfl
@[simp] theorem State.respond_directory (s : State) (l : Link) (tag : Tag) (code : Byte) (st : Status) (b : Body) : (s.respond l tag code st b).directory = s.directory := rfl
@[simp] theorem State.respond_pageSeq (s : State) (l : Link) (tag : Tag) (code : Byte) (st : Status) (b : Body) : (s.respond l tag code st b).pageSeq = s.pageSeq := rfl
@[simp] theorem State.respond_highPos (s : State) (l : Link) (tag : Tag) (code : Byte) (st : Status) (b : Body) : (s.respond l tag code st b).highPos = s.highPos := rfl
@[simp] theorem State.respond_lowPos (s : State) (l : Link) (tag : Tag) (code : Byte) (st : Status) (b : Body) : (s.respond l tag code st b).lowPos = s.lowPos := rfl
@[simp] theorem State.respond_port (s : State) (l : Link) (tag : Tag) (code : Byte) (st : Status) (b : Body) : (s.respond l tag code st b).port = s.port := rfl
@[simp] theorem State.respond_memory (s : State) (l : Link) (tag : Tag) (code : Byte) (st : Status) (b : Body) : (s.respond l tag code st b).memory = s.memory := rfl
@[simp] theorem State.respond_holds (s : State) (l : Link) (tag : Tag) (code : Byte) (st : Status) (b : Body) : (s.respond l tag code st b).holds = s.holds := rfl
@[simp] theorem State.respond_holdCounter (s : State) (l : Link) (tag : Tag) (code : Byte) (st : Status) (b : Body) : (s.respond l tag code st b).holdCounter = s.holdCounter := rfl
@[simp] theorem State.respond_evidence (s : State) (l : Link) (tag : Tag) (code : Byte) (st : Status) (b : Body) : (s.respond l tag code st b).evidence = s.evidence := rfl
@[simp] theorem State.respond_free (s : State) (l : Link) (tag : Tag) (code : Byte) (st : Status) (b : Body) : (s.respond l tag code st b).free = s.free := rfl
@[simp] theorem State.respond_pending (s : State) (l : Link) (tag : Tag) (code : Byte) (st : Status) (b : Body) : (s.respond l tag code st b).pending = s.pending := rfl

/-! ### State.answer -/

@[simp] theorem State.answer_powered (s : State) (l : Link) (r : Request) (st : Status) (b : Body) : (s.answer l r st b).powered = s.powered := rfl
@[simp] theorem State.answer_loading (s : State) (l : Link) (r : Request) (st : Status) (b : Body) : (s.answer l r st b).loading = s.loading := rfl
@[simp] theorem State.answer_flash (s : State) (l : Link) (r : Request) (st : Status) (b : Body) : (s.answer l r st b).flash = s.flash := rfl
@[simp] theorem State.answer_imageCopy (s : State) (l : Link) (r : Request) (st : Status) (b : Body) : (s.answer l r st b).imageCopy = s.imageCopy := rfl
@[simp] theorem State.answer_settings (s : State) (l : Link) (r : Request) (st : Status) (b : Body) : (s.answer l r st b).settings = s.settings := rfl
@[simp] theorem State.answer_save (s : State) (l : Link) (r : Request) (st : Status) (b : Body) : (s.answer l r st b).save = s.save := rfl
@[simp] theorem State.answer_restarting (s : State) (l : Link) (r : Request) (st : Status) (b : Body) : (s.answer l r st b).restarting = s.restarting := rfl
@[simp] theorem State.answer_time (s : State) (l : Link) (r : Request) (st : Status) (b : Body) : (s.answer l r st b).time = s.time := rfl
@[simp] theorem State.answer_cues (s : State) (l : Link) (r : Request) (st : Status) (b : Body) : (s.answer l r st b).cues = s.cues := rfl
@[simp] theorem State.answer_outlets (s : State) (l : Link) (r : Request) (st : Status) (b : Body) : (s.answer l r st b).outlets = s.outlets := rfl
@[simp] theorem State.answer_profiles (s : State) (l : Link) (r : Request) (st : Status) (b : Body) : (s.answer l r st b).profiles = s.profiles := rfl
@[simp] theorem State.answer_directory (s : State) (l : Link) (r : Request) (st : Status) (b : Body) : (s.answer l r st b).directory = s.directory := rfl
@[simp] theorem State.answer_pageSeq (s : State) (l : Link) (r : Request) (st : Status) (b : Body) : (s.answer l r st b).pageSeq = s.pageSeq := rfl
@[simp] theorem State.answer_highPos (s : State) (l : Link) (r : Request) (st : Status) (b : Body) : (s.answer l r st b).highPos = s.highPos := rfl
@[simp] theorem State.answer_lowPos (s : State) (l : Link) (r : Request) (st : Status) (b : Body) : (s.answer l r st b).lowPos = s.lowPos := rfl
@[simp] theorem State.answer_port (s : State) (l : Link) (r : Request) (st : Status) (b : Body) : (s.answer l r st b).port = s.port := rfl
@[simp] theorem State.answer_memory (s : State) (l : Link) (r : Request) (st : Status) (b : Body) : (s.answer l r st b).memory = s.memory := rfl
@[simp] theorem State.answer_holds (s : State) (l : Link) (r : Request) (st : Status) (b : Body) : (s.answer l r st b).holds = s.holds := rfl
@[simp] theorem State.answer_holdCounter (s : State) (l : Link) (r : Request) (st : Status) (b : Body) : (s.answer l r st b).holdCounter = s.holdCounter := rfl
@[simp] theorem State.answer_evidence (s : State) (l : Link) (r : Request) (st : Status) (b : Body) : (s.answer l r st b).evidence = s.evidence := rfl
@[simp] theorem State.answer_free (s : State) (l : Link) (r : Request) (st : Status) (b : Body) : (s.answer l r st b).free = s.free := rfl
@[simp] theorem State.answer_pending (s : State) (l : Link) (r : Request) (st : Status) (b : Body) : (s.answer l r st b).pending = s.pending := rfl

/-! ### State.takeRequest -/

@[simp] theorem State.takeRequest_powered (s : State) (l : Link) : (s.takeRequest l).powered = s.powered := rfl
@[simp] theorem State.takeRequest_loading (s : State) (l : Link) : (s.takeRequest l).loading = s.loading := rfl
@[simp] theorem State.takeRequest_flash (s : State) (l : Link) : (s.takeRequest l).flash = s.flash := rfl
@[simp] theorem State.takeRequest_imageCopy (s : State) (l : Link) : (s.takeRequest l).imageCopy = s.imageCopy := rfl
@[simp] theorem State.takeRequest_settings (s : State) (l : Link) : (s.takeRequest l).settings = s.settings := rfl
@[simp] theorem State.takeRequest_save (s : State) (l : Link) : (s.takeRequest l).save = s.save := rfl
@[simp] theorem State.takeRequest_restarting (s : State) (l : Link) : (s.takeRequest l).restarting = s.restarting := rfl
@[simp] theorem State.takeRequest_time (s : State) (l : Link) : (s.takeRequest l).time = s.time := rfl
@[simp] theorem State.takeRequest_cues (s : State) (l : Link) : (s.takeRequest l).cues = s.cues := rfl
@[simp] theorem State.takeRequest_outlets (s : State) (l : Link) : (s.takeRequest l).outlets = s.outlets := rfl
@[simp] theorem State.takeRequest_profiles (s : State) (l : Link) : (s.takeRequest l).profiles = s.profiles := rfl
@[simp] theorem State.takeRequest_directory (s : State) (l : Link) : (s.takeRequest l).directory = s.directory := rfl
@[simp] theorem State.takeRequest_pageSeq (s : State) (l : Link) : (s.takeRequest l).pageSeq = s.pageSeq := rfl
@[simp] theorem State.takeRequest_highPos (s : State) (l : Link) : (s.takeRequest l).highPos = s.highPos := rfl
@[simp] theorem State.takeRequest_lowPos (s : State) (l : Link) : (s.takeRequest l).lowPos = s.lowPos := rfl
@[simp] theorem State.takeRequest_port (s : State) (l : Link) : (s.takeRequest l).port = s.port := rfl
@[simp] theorem State.takeRequest_memory (s : State) (l : Link) : (s.takeRequest l).memory = s.memory := rfl
@[simp] theorem State.takeRequest_holds (s : State) (l : Link) : (s.takeRequest l).holds = s.holds := rfl
@[simp] theorem State.takeRequest_holdCounter (s : State) (l : Link) : (s.takeRequest l).holdCounter = s.holdCounter := rfl
@[simp] theorem State.takeRequest_evidence (s : State) (l : Link) : (s.takeRequest l).evidence = s.evidence := rfl
@[simp] theorem State.takeRequest_free (s : State) (l : Link) : (s.takeRequest l).free = s.free := rfl
@[simp] theorem State.takeRequest_pending (s : State) (l : Link) : (s.takeRequest l).pending = s.pending := rfl

/-! ### State.refresh -/

@[simp] theorem State.refresh_powered (s : State) : (s.refresh).powered = s.powered := rfl
@[simp] theorem State.refresh_loading (s : State) : (s.refresh).loading = s.loading := rfl
@[simp] theorem State.refresh_flash (s : State) : (s.refresh).flash = s.flash := rfl
@[simp] theorem State.refresh_imageCopy (s : State) : (s.refresh).imageCopy = s.imageCopy := rfl
@[simp] theorem State.refresh_settings (s : State) : (s.refresh).settings = s.settings := rfl
@[simp] theorem State.refresh_save (s : State) : (s.refresh).save = s.save := rfl
@[simp] theorem State.refresh_restarting (s : State) : (s.refresh).restarting = s.restarting := rfl
@[simp] theorem State.refresh_time (s : State) : (s.refresh).time = s.time := rfl
@[simp] theorem State.refresh_cues (s : State) : (s.refresh).cues = s.cues := rfl
@[simp] theorem State.refresh_outlets (s : State) : (s.refresh).outlets = s.outlets := rfl
@[simp] theorem State.refresh_profiles (s : State) : (s.refresh).profiles = s.profiles := rfl
@[simp] theorem State.refresh_directory (s : State) : (s.refresh).directory = s.directory := rfl
@[simp] theorem State.refresh_pageSeq (s : State) : (s.refresh).pageSeq = s.pageSeq := rfl
@[simp] theorem State.refresh_highPos (s : State) : (s.refresh).highPos = s.highPos := rfl
@[simp] theorem State.refresh_lowPos (s : State) : (s.refresh).lowPos = s.lowPos := rfl
@[simp] theorem State.refresh_port (s : State) : (s.refresh).port = s.port := rfl
@[simp] theorem State.refresh_memory (s : State) : (s.refresh).memory = s.memory := rfl
@[simp] theorem State.refresh_holds (s : State) : (s.refresh).holds = s.holds := rfl
@[simp] theorem State.refresh_holdCounter (s : State) : (s.refresh).holdCounter = s.holdCounter := rfl
@[simp] theorem State.refresh_evidence (s : State) : (s.refresh).evidence = s.evidence := rfl
@[simp] theorem State.refresh_free (s : State) : (s.refresh).free = s.free := rfl
@[simp] theorem State.refresh_pending (s : State) : (s.refresh).pending = s.pending := rfl

/-! ### State.modOutlet -/

@[simp] theorem State.modOutlet_powered (s : State) (o : OutletId) (f : Outlet → Outlet) : (s.modOutlet o f).powered = s.powered := rfl
@[simp] theorem State.modOutlet_loading (s : State) (o : OutletId) (f : Outlet → Outlet) : (s.modOutlet o f).loading = s.loading := rfl
@[simp] theorem State.modOutlet_flash (s : State) (o : OutletId) (f : Outlet → Outlet) : (s.modOutlet o f).flash = s.flash := rfl
@[simp] theorem State.modOutlet_imageCopy (s : State) (o : OutletId) (f : Outlet → Outlet) : (s.modOutlet o f).imageCopy = s.imageCopy := rfl
@[simp] theorem State.modOutlet_settings (s : State) (o : OutletId) (f : Outlet → Outlet) : (s.modOutlet o f).settings = s.settings := rfl
@[simp] theorem State.modOutlet_save (s : State) (o : OutletId) (f : Outlet → Outlet) : (s.modOutlet o f).save = s.save := rfl
@[simp] theorem State.modOutlet_restarting (s : State) (o : OutletId) (f : Outlet → Outlet) : (s.modOutlet o f).restarting = s.restarting := rfl
@[simp] theorem State.modOutlet_time (s : State) (o : OutletId) (f : Outlet → Outlet) : (s.modOutlet o f).time = s.time := rfl
@[simp] theorem State.modOutlet_cues (s : State) (o : OutletId) (f : Outlet → Outlet) : (s.modOutlet o f).cues = s.cues := rfl
@[simp] theorem State.modOutlet_profiles (s : State) (o : OutletId) (f : Outlet → Outlet) : (s.modOutlet o f).profiles = s.profiles := rfl
@[simp] theorem State.modOutlet_directory (s : State) (o : OutletId) (f : Outlet → Outlet) : (s.modOutlet o f).directory = s.directory := rfl
@[simp] theorem State.modOutlet_pageSeq (s : State) (o : OutletId) (f : Outlet → Outlet) : (s.modOutlet o f).pageSeq = s.pageSeq := rfl
@[simp] theorem State.modOutlet_highPos (s : State) (o : OutletId) (f : Outlet → Outlet) : (s.modOutlet o f).highPos = s.highPos := rfl
@[simp] theorem State.modOutlet_lowPos (s : State) (o : OutletId) (f : Outlet → Outlet) : (s.modOutlet o f).lowPos = s.lowPos := rfl
@[simp] theorem State.modOutlet_port (s : State) (o : OutletId) (f : Outlet → Outlet) : (s.modOutlet o f).port = s.port := rfl
@[simp] theorem State.modOutlet_memory (s : State) (o : OutletId) (f : Outlet → Outlet) : (s.modOutlet o f).memory = s.memory := rfl
@[simp] theorem State.modOutlet_holds (s : State) (o : OutletId) (f : Outlet → Outlet) : (s.modOutlet o f).holds = s.holds := rfl
@[simp] theorem State.modOutlet_holdCounter (s : State) (o : OutletId) (f : Outlet → Outlet) : (s.modOutlet o f).holdCounter = s.holdCounter := rfl
@[simp] theorem State.modOutlet_evidence (s : State) (o : OutletId) (f : Outlet → Outlet) : (s.modOutlet o f).evidence = s.evidence := rfl
@[simp] theorem State.modOutlet_links (s : State) (o : OutletId) (f : Outlet → Outlet) : (s.modOutlet o f).links = s.links := rfl
@[simp] theorem State.modOutlet_free (s : State) (o : OutletId) (f : Outlet → Outlet) : (s.modOutlet o f).free = s.free := rfl
@[simp] theorem State.modOutlet_pending (s : State) (o : OutletId) (f : Outlet → Outlet) : (s.modOutlet o f).pending = s.pending := rfl

/-! ### State.useFree -/

@[simp] theorem State.useFree_powered (s : State) (k : Nat) : (s.useFree k).powered = s.powered := rfl
@[simp] theorem State.useFree_loading (s : State) (k : Nat) : (s.useFree k).loading = s.loading := rfl
@[simp] theorem State.useFree_flash (s : State) (k : Nat) : (s.useFree k).flash = s.flash := rfl
@[simp] theorem State.useFree_imageCopy (s : State) (k : Nat) : (s.useFree k).imageCopy = s.imageCopy := rfl
@[simp] theorem State.useFree_settings (s : State) (k : Nat) : (s.useFree k).settings = s.settings := rfl
@[simp] theorem State.useFree_save (s : State) (k : Nat) : (s.useFree k).save = s.save := rfl
@[simp] theorem State.useFree_restarting (s : State) (k : Nat) : (s.useFree k).restarting = s.restarting := rfl
@[simp] theorem State.useFree_time (s : State) (k : Nat) : (s.useFree k).time = s.time := rfl
@[simp] theorem State.useFree_cues (s : State) (k : Nat) : (s.useFree k).cues = s.cues := rfl
@[simp] theorem State.useFree_outlets (s : State) (k : Nat) : (s.useFree k).outlets = s.outlets := rfl
@[simp] theorem State.useFree_profiles (s : State) (k : Nat) : (s.useFree k).profiles = s.profiles := rfl
@[simp] theorem State.useFree_directory (s : State) (k : Nat) : (s.useFree k).directory = s.directory := rfl
@[simp] theorem State.useFree_pageSeq (s : State) (k : Nat) : (s.useFree k).pageSeq = s.pageSeq := rfl
@[simp] theorem State.useFree_highPos (s : State) (k : Nat) : (s.useFree k).highPos = s.highPos := rfl
@[simp] theorem State.useFree_lowPos (s : State) (k : Nat) : (s.useFree k).lowPos = s.lowPos := rfl
@[simp] theorem State.useFree_port (s : State) (k : Nat) : (s.useFree k).port = s.port := rfl
@[simp] theorem State.useFree_memory (s : State) (k : Nat) : (s.useFree k).memory = s.memory := rfl
@[simp] theorem State.useFree_holds (s : State) (k : Nat) : (s.useFree k).holds = s.holds := rfl
@[simp] theorem State.useFree_holdCounter (s : State) (k : Nat) : (s.useFree k).holdCounter = s.holdCounter := rfl
@[simp] theorem State.useFree_evidence (s : State) (k : Nat) : (s.useFree k).evidence = s.evidence := rfl
@[simp] theorem State.useFree_links (s : State) (k : Nat) : (s.useFree k).links = s.links := rfl
@[simp] theorem State.useFree_pending (s : State) (k : Nat) : (s.useFree k).pending = s.pending := rfl

/-! ### State.create -/

@[simp] theorem State.create_powered (s : State) (d : Draft) : (s.create d).powered = s.powered := rfl
@[simp] theorem State.create_loading (s : State) (d : Draft) : (s.create d).loading = s.loading := rfl
@[simp] theorem State.create_flash (s : State) (d : Draft) : (s.create d).flash = s.flash := rfl
@[simp] theorem State.create_imageCopy (s : State) (d : Draft) : (s.create d).imageCopy = s.imageCopy := rfl
@[simp] theorem State.create_settings (s : State) (d : Draft) : (s.create d).settings = s.settings := rfl
@[simp] theorem State.create_save (s : State) (d : Draft) : (s.create d).save = s.save := rfl
@[simp] theorem State.create_restarting (s : State) (d : Draft) : (s.create d).restarting = s.restarting := rfl
@[simp] theorem State.create_time (s : State) (d : Draft) : (s.create d).time = s.time := rfl
@[simp] theorem State.create_cues (s : State) (d : Draft) : (s.create d).cues = s.cues := rfl
@[simp] theorem State.create_outlets (s : State) (d : Draft) : (s.create d).outlets = s.outlets := rfl
@[simp] theorem State.create_profiles (s : State) (d : Draft) : (s.create d).profiles = s.profiles := rfl
@[simp] theorem State.create_directory (s : State) (d : Draft) : (s.create d).directory = s.directory := rfl
@[simp] theorem State.create_pageSeq (s : State) (d : Draft) : (s.create d).pageSeq = s.pageSeq := rfl
@[simp] theorem State.create_highPos (s : State) (d : Draft) : (s.create d).highPos = s.highPos := rfl
@[simp] theorem State.create_lowPos (s : State) (d : Draft) : (s.create d).lowPos = s.lowPos := rfl
@[simp] theorem State.create_port (s : State) (d : Draft) : (s.create d).port = s.port := rfl
@[simp] theorem State.create_memory (s : State) (d : Draft) : (s.create d).memory = s.memory := rfl
@[simp] theorem State.create_holds (s : State) (d : Draft) : (s.create d).holds = s.holds := rfl
@[simp] theorem State.create_holdCounter (s : State) (d : Draft) : (s.create d).holdCounter = s.holdCounter := rfl
@[simp] theorem State.create_links (s : State) (d : Draft) : (s.create d).links = s.links := rfl
@[simp] theorem State.create_free (s : State) (d : Draft) : (s.create d).free = s.free := rfl
@[simp] theorem State.create_pending (s : State) (d : Draft) : (s.create d).pending = s.pending := rfl

/-! ### State.createNow -/

@[simp] theorem State.createNow_powered (s : State) (o : Option OutletId) (b : EvidenceBody) : (s.createNow o b).powered = s.powered := rfl
@[simp] theorem State.createNow_loading (s : State) (o : Option OutletId) (b : EvidenceBody) : (s.createNow o b).loading = s.loading := rfl
@[simp] theorem State.createNow_flash (s : State) (o : Option OutletId) (b : EvidenceBody) : (s.createNow o b).flash = s.flash := rfl
@[simp] theorem State.createNow_imageCopy (s : State) (o : Option OutletId) (b : EvidenceBody) : (s.createNow o b).imageCopy = s.imageCopy := rfl
@[simp] theorem State.createNow_settings (s : State) (o : Option OutletId) (b : EvidenceBody) : (s.createNow o b).settings = s.settings := rfl
@[simp] theorem State.createNow_save (s : State) (o : Option OutletId) (b : EvidenceBody) : (s.createNow o b).save = s.save := rfl
@[simp] theorem State.createNow_restarting (s : State) (o : Option OutletId) (b : EvidenceBody) : (s.createNow o b).restarting = s.restarting := rfl
@[simp] theorem State.createNow_time (s : State) (o : Option OutletId) (b : EvidenceBody) : (s.createNow o b).time = s.time := rfl
@[simp] theorem State.createNow_cues (s : State) (o : Option OutletId) (b : EvidenceBody) : (s.createNow o b).cues = s.cues := rfl
@[simp] theorem State.createNow_outlets (s : State) (o : Option OutletId) (b : EvidenceBody) : (s.createNow o b).outlets = s.outlets := rfl
@[simp] theorem State.createNow_profiles (s : State) (o : Option OutletId) (b : EvidenceBody) : (s.createNow o b).profiles = s.profiles := rfl
@[simp] theorem State.createNow_directory (s : State) (o : Option OutletId) (b : EvidenceBody) : (s.createNow o b).directory = s.directory := rfl
@[simp] theorem State.createNow_pageSeq (s : State) (o : Option OutletId) (b : EvidenceBody) : (s.createNow o b).pageSeq = s.pageSeq := rfl
@[simp] theorem State.createNow_highPos (s : State) (o : Option OutletId) (b : EvidenceBody) : (s.createNow o b).highPos = s.highPos := rfl
@[simp] theorem State.createNow_lowPos (s : State) (o : Option OutletId) (b : EvidenceBody) : (s.createNow o b).lowPos = s.lowPos := rfl
@[simp] theorem State.createNow_port (s : State) (o : Option OutletId) (b : EvidenceBody) : (s.createNow o b).port = s.port := rfl
@[simp] theorem State.createNow_memory (s : State) (o : Option OutletId) (b : EvidenceBody) : (s.createNow o b).memory = s.memory := rfl
@[simp] theorem State.createNow_holds (s : State) (o : Option OutletId) (b : EvidenceBody) : (s.createNow o b).holds = s.holds := rfl
@[simp] theorem State.createNow_holdCounter (s : State) (o : Option OutletId) (b : EvidenceBody) : (s.createNow o b).holdCounter = s.holdCounter := rfl
@[simp] theorem State.createNow_links (s : State) (o : Option OutletId) (b : EvidenceBody) : (s.createNow o b).links = s.links := rfl
@[simp] theorem State.createNow_free (s : State) (o : Option OutletId) (b : EvidenceBody) : (s.createNow o b).free = s.free := rfl
@[simp] theorem State.createNow_pending (s : State) (o : Option OutletId) (b : EvidenceBody) : (s.createNow o b).pending = s.pending := rfl

/-! ### State.modPage -/

@[simp] theorem State.modPage_powered (s : State) (p : Nat) (f : PageEntry → PageEntry) : (s.modPage p f).powered = s.powered := rfl
@[simp] theorem State.modPage_loading (s : State) (p : Nat) (f : PageEntry → PageEntry) : (s.modPage p f).loading = s.loading := rfl
@[simp] theorem State.modPage_flash (s : State) (p : Nat) (f : PageEntry → PageEntry) : (s.modPage p f).flash = s.flash := rfl
@[simp] theorem State.modPage_imageCopy (s : State) (p : Nat) (f : PageEntry → PageEntry) : (s.modPage p f).imageCopy = s.imageCopy := rfl
@[simp] theorem State.modPage_settings (s : State) (p : Nat) (f : PageEntry → PageEntry) : (s.modPage p f).settings = s.settings := rfl
@[simp] theorem State.modPage_save (s : State) (p : Nat) (f : PageEntry → PageEntry) : (s.modPage p f).save = s.save := rfl
@[simp] theorem State.modPage_restarting (s : State) (p : Nat) (f : PageEntry → PageEntry) : (s.modPage p f).restarting = s.restarting := rfl
@[simp] theorem State.modPage_time (s : State) (p : Nat) (f : PageEntry → PageEntry) : (s.modPage p f).time = s.time := rfl
@[simp] theorem State.modPage_cues (s : State) (p : Nat) (f : PageEntry → PageEntry) : (s.modPage p f).cues = s.cues := rfl
@[simp] theorem State.modPage_outlets (s : State) (p : Nat) (f : PageEntry → PageEntry) : (s.modPage p f).outlets = s.outlets := rfl
@[simp] theorem State.modPage_profiles (s : State) (p : Nat) (f : PageEntry → PageEntry) : (s.modPage p f).profiles = s.profiles := rfl
@[simp] theorem State.modPage_pageSeq (s : State) (p : Nat) (f : PageEntry → PageEntry) : (s.modPage p f).pageSeq = s.pageSeq := rfl
@[simp] theorem State.modPage_highPos (s : State) (p : Nat) (f : PageEntry → PageEntry) : (s.modPage p f).highPos = s.highPos := rfl
@[simp] theorem State.modPage_lowPos (s : State) (p : Nat) (f : PageEntry → PageEntry) : (s.modPage p f).lowPos = s.lowPos := rfl
@[simp] theorem State.modPage_port (s : State) (p : Nat) (f : PageEntry → PageEntry) : (s.modPage p f).port = s.port := rfl
@[simp] theorem State.modPage_memory (s : State) (p : Nat) (f : PageEntry → PageEntry) : (s.modPage p f).memory = s.memory := rfl
@[simp] theorem State.modPage_holds (s : State) (p : Nat) (f : PageEntry → PageEntry) : (s.modPage p f).holds = s.holds := rfl
@[simp] theorem State.modPage_holdCounter (s : State) (p : Nat) (f : PageEntry → PageEntry) : (s.modPage p f).holdCounter = s.holdCounter := rfl
@[simp] theorem State.modPage_evidence (s : State) (p : Nat) (f : PageEntry → PageEntry) : (s.modPage p f).evidence = s.evidence := rfl
@[simp] theorem State.modPage_links (s : State) (p : Nat) (f : PageEntry → PageEntry) : (s.modPage p f).links = s.links := rfl
@[simp] theorem State.modPage_free (s : State) (p : Nat) (f : PageEntry → PageEntry) : (s.modPage p f).free = s.free := rfl
@[simp] theorem State.modPage_pending (s : State) (p : Nat) (f : PageEntry → PageEntry) : (s.modPage p f).pending = s.pending := rfl

/-! ### State.modTime -/

@[simp] theorem State.modTime_powered (s : State) (f : TimeBase → TimeBase) : (s.modTime f).powered = s.powered := rfl
@[simp] theorem State.modTime_loading (s : State) (f : TimeBase → TimeBase) : (s.modTime f).loading = s.loading := rfl
@[simp] theorem State.modTime_flash (s : State) (f : TimeBase → TimeBase) : (s.modTime f).flash = s.flash := rfl
@[simp] theorem State.modTime_imageCopy (s : State) (f : TimeBase → TimeBase) : (s.modTime f).imageCopy = s.imageCopy := rfl
@[simp] theorem State.modTime_settings (s : State) (f : TimeBase → TimeBase) : (s.modTime f).settings = s.settings := rfl
@[simp] theorem State.modTime_save (s : State) (f : TimeBase → TimeBase) : (s.modTime f).save = s.save := rfl
@[simp] theorem State.modTime_restarting (s : State) (f : TimeBase → TimeBase) : (s.modTime f).restarting = s.restarting := rfl
@[simp] theorem State.modTime_cues (s : State) (f : TimeBase → TimeBase) : (s.modTime f).cues = s.cues := rfl
@[simp] theorem State.modTime_outlets (s : State) (f : TimeBase → TimeBase) : (s.modTime f).outlets = s.outlets := rfl
@[simp] theorem State.modTime_profiles (s : State) (f : TimeBase → TimeBase) : (s.modTime f).profiles = s.profiles := rfl
@[simp] theorem State.modTime_directory (s : State) (f : TimeBase → TimeBase) : (s.modTime f).directory = s.directory := rfl
@[simp] theorem State.modTime_pageSeq (s : State) (f : TimeBase → TimeBase) : (s.modTime f).pageSeq = s.pageSeq := rfl
@[simp] theorem State.modTime_highPos (s : State) (f : TimeBase → TimeBase) : (s.modTime f).highPos = s.highPos := rfl
@[simp] theorem State.modTime_lowPos (s : State) (f : TimeBase → TimeBase) : (s.modTime f).lowPos = s.lowPos := rfl
@[simp] theorem State.modTime_port (s : State) (f : TimeBase → TimeBase) : (s.modTime f).port = s.port := rfl
@[simp] theorem State.modTime_memory (s : State) (f : TimeBase → TimeBase) : (s.modTime f).memory = s.memory := rfl
@[simp] theorem State.modTime_holds (s : State) (f : TimeBase → TimeBase) : (s.modTime f).holds = s.holds := rfl
@[simp] theorem State.modTime_holdCounter (s : State) (f : TimeBase → TimeBase) : (s.modTime f).holdCounter = s.holdCounter := rfl
@[simp] theorem State.modTime_evidence (s : State) (f : TimeBase → TimeBase) : (s.modTime f).evidence = s.evidence := rfl
@[simp] theorem State.modTime_links (s : State) (f : TimeBase → TimeBase) : (s.modTime f).links = s.links := rfl
@[simp] theorem State.modTime_free (s : State) (f : TimeBase → TimeBase) : (s.modTime f).free = s.free := rfl
@[simp] theorem State.modTime_pending (s : State) (f : TimeBase → TimeBase) : (s.modTime f).pending = s.pending := rfl

/-! ### State.modEvidence -/

@[simp] theorem State.modEvidence_powered (s : State) (f : Evidence → Evidence) : (s.modEvidence f).powered = s.powered := rfl
@[simp] theorem State.modEvidence_loading (s : State) (f : Evidence → Evidence) : (s.modEvidence f).loading = s.loading := rfl
@[simp] theorem State.modEvidence_flash (s : State) (f : Evidence → Evidence) : (s.modEvidence f).flash = s.flash := rfl
@[simp] theorem State.modEvidence_imageCopy (s : State) (f : Evidence → Evidence) : (s.modEvidence f).imageCopy = s.imageCopy := rfl
@[simp] theorem State.modEvidence_settings (s : State) (f : Evidence → Evidence) : (s.modEvidence f).settings = s.settings := rfl
@[simp] theorem State.modEvidence_save (s : State) (f : Evidence → Evidence) : (s.modEvidence f).save = s.save := rfl
@[simp] theorem State.modEvidence_restarting (s : State) (f : Evidence → Evidence) : (s.modEvidence f).restarting = s.restarting := rfl
@[simp] theorem State.modEvidence_time (s : State) (f : Evidence → Evidence) : (s.modEvidence f).time = s.time := rfl
@[simp] theorem State.modEvidence_cues (s : State) (f : Evidence → Evidence) : (s.modEvidence f).cues = s.cues := rfl
@[simp] theorem State.modEvidence_outlets (s : State) (f : Evidence → Evidence) : (s.modEvidence f).outlets = s.outlets := rfl
@[simp] theorem State.modEvidence_profiles (s : State) (f : Evidence → Evidence) : (s.modEvidence f).profiles = s.profiles := rfl
@[simp] theorem State.modEvidence_directory (s : State) (f : Evidence → Evidence) : (s.modEvidence f).directory = s.directory := rfl
@[simp] theorem State.modEvidence_pageSeq (s : State) (f : Evidence → Evidence) : (s.modEvidence f).pageSeq = s.pageSeq := rfl
@[simp] theorem State.modEvidence_highPos (s : State) (f : Evidence → Evidence) : (s.modEvidence f).highPos = s.highPos := rfl
@[simp] theorem State.modEvidence_lowPos (s : State) (f : Evidence → Evidence) : (s.modEvidence f).lowPos = s.lowPos := rfl
@[simp] theorem State.modEvidence_port (s : State) (f : Evidence → Evidence) : (s.modEvidence f).port = s.port := rfl
@[simp] theorem State.modEvidence_memory (s : State) (f : Evidence → Evidence) : (s.modEvidence f).memory = s.memory := rfl
@[simp] theorem State.modEvidence_holds (s : State) (f : Evidence → Evidence) : (s.modEvidence f).holds = s.holds := rfl
@[simp] theorem State.modEvidence_holdCounter (s : State) (f : Evidence → Evidence) : (s.modEvidence f).holdCounter = s.holdCounter := rfl
@[simp] theorem State.modEvidence_links (s : State) (f : Evidence → Evidence) : (s.modEvidence f).links = s.links := rfl
@[simp] theorem State.modEvidence_free (s : State) (f : Evidence → Evidence) : (s.modEvidence f).free = s.free := rfl
@[simp] theorem State.modEvidence_pending (s : State) (f : Evidence → Evidence) : (s.modEvidence f).pending = s.pending := rfl

/-! ### State.setCue -/

@[simp] theorem State.setCue_powered (s : State) (k : CueLine) (c : CueRecord) : (s.setCue k c).powered = s.powered := rfl
@[simp] theorem State.setCue_loading (s : State) (k : CueLine) (c : CueRecord) : (s.setCue k c).loading = s.loading := rfl
@[simp] theorem State.setCue_flash (s : State) (k : CueLine) (c : CueRecord) : (s.setCue k c).flash = s.flash := rfl
@[simp] theorem State.setCue_imageCopy (s : State) (k : CueLine) (c : CueRecord) : (s.setCue k c).imageCopy = s.imageCopy := rfl
@[simp] theorem State.setCue_settings (s : State) (k : CueLine) (c : CueRecord) : (s.setCue k c).settings = s.settings := rfl
@[simp] theorem State.setCue_save (s : State) (k : CueLine) (c : CueRecord) : (s.setCue k c).save = s.save := rfl
@[simp] theorem State.setCue_restarting (s : State) (k : CueLine) (c : CueRecord) : (s.setCue k c).restarting = s.restarting := rfl
@[simp] theorem State.setCue_time (s : State) (k : CueLine) (c : CueRecord) : (s.setCue k c).time = s.time := rfl
@[simp] theorem State.setCue_outlets (s : State) (k : CueLine) (c : CueRecord) : (s.setCue k c).outlets = s.outlets := rfl
@[simp] theorem State.setCue_profiles (s : State) (k : CueLine) (c : CueRecord) : (s.setCue k c).profiles = s.profiles := rfl
@[simp] theorem State.setCue_directory (s : State) (k : CueLine) (c : CueRecord) : (s.setCue k c).directory = s.directory := rfl
@[simp] theorem State.setCue_pageSeq (s : State) (k : CueLine) (c : CueRecord) : (s.setCue k c).pageSeq = s.pageSeq := rfl
@[simp] theorem State.setCue_highPos (s : State) (k : CueLine) (c : CueRecord) : (s.setCue k c).highPos = s.highPos := rfl
@[simp] theorem State.setCue_lowPos (s : State) (k : CueLine) (c : CueRecord) : (s.setCue k c).lowPos = s.lowPos := rfl
@[simp] theorem State.setCue_port (s : State) (k : CueLine) (c : CueRecord) : (s.setCue k c).port = s.port := rfl
@[simp] theorem State.setCue_memory (s : State) (k : CueLine) (c : CueRecord) : (s.setCue k c).memory = s.memory := rfl
@[simp] theorem State.setCue_holds (s : State) (k : CueLine) (c : CueRecord) : (s.setCue k c).holds = s.holds := rfl
@[simp] theorem State.setCue_holdCounter (s : State) (k : CueLine) (c : CueRecord) : (s.setCue k c).holdCounter = s.holdCounter := rfl
@[simp] theorem State.setCue_evidence (s : State) (k : CueLine) (c : CueRecord) : (s.setCue k c).evidence = s.evidence := rfl
@[simp] theorem State.setCue_links (s : State) (k : CueLine) (c : CueRecord) : (s.setCue k c).links = s.links := rfl
@[simp] theorem State.setCue_free (s : State) (k : CueLine) (c : CueRecord) : (s.setCue k c).free = s.free := rfl
@[simp] theorem State.setCue_pending (s : State) (k : CueLine) (c : CueRecord) : (s.setCue k c).pending = s.pending := rfl

/-! ### State.modIntake -/

@[simp] theorem State.modIntake_powered (s : State) (o : OutletId) (f : Intake → Intake) : (s.modIntake o f).powered = s.powered := rfl
@[simp] theorem State.modIntake_loading (s : State) (o : OutletId) (f : Intake → Intake) : (s.modIntake o f).loading = s.loading := rfl
@[simp] theorem State.modIntake_flash (s : State) (o : OutletId) (f : Intake → Intake) : (s.modIntake o f).flash = s.flash := rfl
@[simp] theorem State.modIntake_imageCopy (s : State) (o : OutletId) (f : Intake → Intake) : (s.modIntake o f).imageCopy = s.imageCopy := rfl
@[simp] theorem State.modIntake_settings (s : State) (o : OutletId) (f : Intake → Intake) : (s.modIntake o f).settings = s.settings := rfl
@[simp] theorem State.modIntake_save (s : State) (o : OutletId) (f : Intake → Intake) : (s.modIntake o f).save = s.save := rfl
@[simp] theorem State.modIntake_restarting (s : State) (o : OutletId) (f : Intake → Intake) : (s.modIntake o f).restarting = s.restarting := rfl
@[simp] theorem State.modIntake_time (s : State) (o : OutletId) (f : Intake → Intake) : (s.modIntake o f).time = s.time := rfl
@[simp] theorem State.modIntake_cues (s : State) (o : OutletId) (f : Intake → Intake) : (s.modIntake o f).cues = s.cues := rfl
@[simp] theorem State.modIntake_profiles (s : State) (o : OutletId) (f : Intake → Intake) : (s.modIntake o f).profiles = s.profiles := rfl
@[simp] theorem State.modIntake_directory (s : State) (o : OutletId) (f : Intake → Intake) : (s.modIntake o f).directory = s.directory := rfl
@[simp] theorem State.modIntake_pageSeq (s : State) (o : OutletId) (f : Intake → Intake) : (s.modIntake o f).pageSeq = s.pageSeq := rfl
@[simp] theorem State.modIntake_highPos (s : State) (o : OutletId) (f : Intake → Intake) : (s.modIntake o f).highPos = s.highPos := rfl
@[simp] theorem State.modIntake_lowPos (s : State) (o : OutletId) (f : Intake → Intake) : (s.modIntake o f).lowPos = s.lowPos := rfl
@[simp] theorem State.modIntake_port (s : State) (o : OutletId) (f : Intake → Intake) : (s.modIntake o f).port = s.port := rfl
@[simp] theorem State.modIntake_memory (s : State) (o : OutletId) (f : Intake → Intake) : (s.modIntake o f).memory = s.memory := rfl
@[simp] theorem State.modIntake_holds (s : State) (o : OutletId) (f : Intake → Intake) : (s.modIntake o f).holds = s.holds := rfl
@[simp] theorem State.modIntake_holdCounter (s : State) (o : OutletId) (f : Intake → Intake) : (s.modIntake o f).holdCounter = s.holdCounter := rfl
@[simp] theorem State.modIntake_evidence (s : State) (o : OutletId) (f : Intake → Intake) : (s.modIntake o f).evidence = s.evidence := rfl
@[simp] theorem State.modIntake_links (s : State) (o : OutletId) (f : Intake → Intake) : (s.modIntake o f).links = s.links := rfl
@[simp] theorem State.modIntake_free (s : State) (o : OutletId) (f : Intake → Intake) : (s.modIntake o f).free = s.free := rfl
@[simp] theorem State.modIntake_pending (s : State) (o : OutletId) (f : Intake → Intake) : (s.modIntake o f).pending = s.pending := rfl

/-! ### State.modSched -/

@[simp] theorem State.modSched_powered (s : State) (o : OutletId) (f : Sched → Sched) : (s.modSched o f).powered = s.powered := rfl
@[simp] theorem State.modSched_loading (s : State) (o : OutletId) (f : Sched → Sched) : (s.modSched o f).loading = s.loading := rfl
@[simp] theorem State.modSched_flash (s : State) (o : OutletId) (f : Sched → Sched) : (s.modSched o f).flash = s.flash := rfl
@[simp] theorem State.modSched_imageCopy (s : State) (o : OutletId) (f : Sched → Sched) : (s.modSched o f).imageCopy = s.imageCopy := rfl
@[simp] theorem State.modSched_settings (s : State) (o : OutletId) (f : Sched → Sched) : (s.modSched o f).settings = s.settings := rfl
@[simp] theorem State.modSched_save (s : State) (o : OutletId) (f : Sched → Sched) : (s.modSched o f).save = s.save := rfl
@[simp] theorem State.modSched_restarting (s : State) (o : OutletId) (f : Sched → Sched) : (s.modSched o f).restarting = s.restarting := rfl
@[simp] theorem State.modSched_time (s : State) (o : OutletId) (f : Sched → Sched) : (s.modSched o f).time = s.time := rfl
@[simp] theorem State.modSched_cues (s : State) (o : OutletId) (f : Sched → Sched) : (s.modSched o f).cues = s.cues := rfl
@[simp] theorem State.modSched_profiles (s : State) (o : OutletId) (f : Sched → Sched) : (s.modSched o f).profiles = s.profiles := rfl
@[simp] theorem State.modSched_directory (s : State) (o : OutletId) (f : Sched → Sched) : (s.modSched o f).directory = s.directory := rfl
@[simp] theorem State.modSched_pageSeq (s : State) (o : OutletId) (f : Sched → Sched) : (s.modSched o f).pageSeq = s.pageSeq := rfl
@[simp] theorem State.modSched_highPos (s : State) (o : OutletId) (f : Sched → Sched) : (s.modSched o f).highPos = s.highPos := rfl
@[simp] theorem State.modSched_lowPos (s : State) (o : OutletId) (f : Sched → Sched) : (s.modSched o f).lowPos = s.lowPos := rfl
@[simp] theorem State.modSched_port (s : State) (o : OutletId) (f : Sched → Sched) : (s.modSched o f).port = s.port := rfl
@[simp] theorem State.modSched_memory (s : State) (o : OutletId) (f : Sched → Sched) : (s.modSched o f).memory = s.memory := rfl
@[simp] theorem State.modSched_holds (s : State) (o : OutletId) (f : Sched → Sched) : (s.modSched o f).holds = s.holds := rfl
@[simp] theorem State.modSched_holdCounter (s : State) (o : OutletId) (f : Sched → Sched) : (s.modSched o f).holdCounter = s.holdCounter := rfl
@[simp] theorem State.modSched_evidence (s : State) (o : OutletId) (f : Sched → Sched) : (s.modSched o f).evidence = s.evidence := rfl
@[simp] theorem State.modSched_links (s : State) (o : OutletId) (f : Sched → Sched) : (s.modSched o f).links = s.links := rfl
@[simp] theorem State.modSched_free (s : State) (o : OutletId) (f : Sched → Sched) : (s.modSched o f).free = s.free := rfl
@[simp] theorem State.modSched_pending (s : State) (o : OutletId) (f : Sched → Sched) : (s.modSched o f).pending = s.pending := rfl

/-! ### State.modLoud -/

@[simp] theorem State.modLoud_powered (s : State) (o : OutletId) (f : Loud → Loud) : (s.modLoud o f).powered = s.powered := rfl
@[simp] theorem State.modLoud_loading (s : State) (o : OutletId) (f : Loud → Loud) : (s.modLoud o f).loading = s.loading := rfl
@[simp] theorem State.modLoud_flash (s : State) (o : OutletId) (f : Loud → Loud) : (s.modLoud o f).flash = s.flash := rfl
@[simp] theorem State.modLoud_imageCopy (s : State) (o : OutletId) (f : Loud → Loud) : (s.modLoud o f).imageCopy = s.imageCopy := rfl
@[simp] theorem State.modLoud_settings (s : State) (o : OutletId) (f : Loud → Loud) : (s.modLoud o f).settings = s.settings := rfl
@[simp] theorem State.modLoud_save (s : State) (o : OutletId) (f : Loud → Loud) : (s.modLoud o f).save = s.save := rfl
@[simp] theorem State.modLoud_restarting (s : State) (o : OutletId) (f : Loud → Loud) : (s.modLoud o f).restarting = s.restarting := rfl
@[simp] theorem State.modLoud_time (s : State) (o : OutletId) (f : Loud → Loud) : (s.modLoud o f).time = s.time := rfl
@[simp] theorem State.modLoud_cues (s : State) (o : OutletId) (f : Loud → Loud) : (s.modLoud o f).cues = s.cues := rfl
@[simp] theorem State.modLoud_profiles (s : State) (o : OutletId) (f : Loud → Loud) : (s.modLoud o f).profiles = s.profiles := rfl
@[simp] theorem State.modLoud_directory (s : State) (o : OutletId) (f : Loud → Loud) : (s.modLoud o f).directory = s.directory := rfl
@[simp] theorem State.modLoud_pageSeq (s : State) (o : OutletId) (f : Loud → Loud) : (s.modLoud o f).pageSeq = s.pageSeq := rfl
@[simp] theorem State.modLoud_highPos (s : State) (o : OutletId) (f : Loud → Loud) : (s.modLoud o f).highPos = s.highPos := rfl
@[simp] theorem State.modLoud_lowPos (s : State) (o : OutletId) (f : Loud → Loud) : (s.modLoud o f).lowPos = s.lowPos := rfl
@[simp] theorem State.modLoud_port (s : State) (o : OutletId) (f : Loud → Loud) : (s.modLoud o f).port = s.port := rfl
@[simp] theorem State.modLoud_memory (s : State) (o : OutletId) (f : Loud → Loud) : (s.modLoud o f).memory = s.memory := rfl
@[simp] theorem State.modLoud_holds (s : State) (o : OutletId) (f : Loud → Loud) : (s.modLoud o f).holds = s.holds := rfl
@[simp] theorem State.modLoud_holdCounter (s : State) (o : OutletId) (f : Loud → Loud) : (s.modLoud o f).holdCounter = s.holdCounter := rfl
@[simp] theorem State.modLoud_evidence (s : State) (o : OutletId) (f : Loud → Loud) : (s.modLoud o f).evidence = s.evidence := rfl
@[simp] theorem State.modLoud_links (s : State) (o : OutletId) (f : Loud → Loud) : (s.modLoud o f).links = s.links := rfl
@[simp] theorem State.modLoud_free (s : State) (o : OutletId) (f : Loud → Loud) : (s.modLoud o f).free = s.free := rfl
@[simp] theorem State.modLoud_pending (s : State) (o : OutletId) (f : Loud → Loud) : (s.modLoud o f).pending = s.pending := rfl

/-! ### State.modSubs -/

@[simp] theorem State.modSubs_powered (s : State) (o : OutletId) (f : Subs → Subs) : (s.modSubs o f).powered = s.powered := rfl
@[simp] theorem State.modSubs_loading (s : State) (o : OutletId) (f : Subs → Subs) : (s.modSubs o f).loading = s.loading := rfl
@[simp] theorem State.modSubs_flash (s : State) (o : OutletId) (f : Subs → Subs) : (s.modSubs o f).flash = s.flash := rfl
@[simp] theorem State.modSubs_imageCopy (s : State) (o : OutletId) (f : Subs → Subs) : (s.modSubs o f).imageCopy = s.imageCopy := rfl
@[simp] theorem State.modSubs_settings (s : State) (o : OutletId) (f : Subs → Subs) : (s.modSubs o f).settings = s.settings := rfl
@[simp] theorem State.modSubs_save (s : State) (o : OutletId) (f : Subs → Subs) : (s.modSubs o f).save = s.save := rfl
@[simp] theorem State.modSubs_restarting (s : State) (o : OutletId) (f : Subs → Subs) : (s.modSubs o f).restarting = s.restarting := rfl
@[simp] theorem State.modSubs_time (s : State) (o : OutletId) (f : Subs → Subs) : (s.modSubs o f).time = s.time := rfl
@[simp] theorem State.modSubs_cues (s : State) (o : OutletId) (f : Subs → Subs) : (s.modSubs o f).cues = s.cues := rfl
@[simp] theorem State.modSubs_profiles (s : State) (o : OutletId) (f : Subs → Subs) : (s.modSubs o f).profiles = s.profiles := rfl
@[simp] theorem State.modSubs_directory (s : State) (o : OutletId) (f : Subs → Subs) : (s.modSubs o f).directory = s.directory := rfl
@[simp] theorem State.modSubs_pageSeq (s : State) (o : OutletId) (f : Subs → Subs) : (s.modSubs o f).pageSeq = s.pageSeq := rfl
@[simp] theorem State.modSubs_highPos (s : State) (o : OutletId) (f : Subs → Subs) : (s.modSubs o f).highPos = s.highPos := rfl
@[simp] theorem State.modSubs_lowPos (s : State) (o : OutletId) (f : Subs → Subs) : (s.modSubs o f).lowPos = s.lowPos := rfl
@[simp] theorem State.modSubs_port (s : State) (o : OutletId) (f : Subs → Subs) : (s.modSubs o f).port = s.port := rfl
@[simp] theorem State.modSubs_memory (s : State) (o : OutletId) (f : Subs → Subs) : (s.modSubs o f).memory = s.memory := rfl
@[simp] theorem State.modSubs_holds (s : State) (o : OutletId) (f : Subs → Subs) : (s.modSubs o f).holds = s.holds := rfl
@[simp] theorem State.modSubs_holdCounter (s : State) (o : OutletId) (f : Subs → Subs) : (s.modSubs o f).holdCounter = s.holdCounter := rfl
@[simp] theorem State.modSubs_evidence (s : State) (o : OutletId) (f : Subs → Subs) : (s.modSubs o f).evidence = s.evidence := rfl
@[simp] theorem State.modSubs_links (s : State) (o : OutletId) (f : Subs → Subs) : (s.modSubs o f).links = s.links := rfl
@[simp] theorem State.modSubs_free (s : State) (o : OutletId) (f : Subs → Subs) : (s.modSubs o f).free = s.free := rfl
@[simp] theorem State.modSubs_pending (s : State) (o : OutletId) (f : Subs → Subs) : (s.modSubs o f).pending = s.pending := rfl

/-! ### State.modVerdict -/

@[simp] theorem State.modVerdict_powered (s : State) (o : OutletId) (f : VerdictUnit → VerdictUnit) : (s.modVerdict o f).powered = s.powered := rfl
@[simp] theorem State.modVerdict_loading (s : State) (o : OutletId) (f : VerdictUnit → VerdictUnit) : (s.modVerdict o f).loading = s.loading := rfl
@[simp] theorem State.modVerdict_flash (s : State) (o : OutletId) (f : VerdictUnit → VerdictUnit) : (s.modVerdict o f).flash = s.flash := rfl
@[simp] theorem State.modVerdict_imageCopy (s : State) (o : OutletId) (f : VerdictUnit → VerdictUnit) : (s.modVerdict o f).imageCopy = s.imageCopy := rfl
@[simp] theorem State.modVerdict_settings (s : State) (o : OutletId) (f : VerdictUnit → VerdictUnit) : (s.modVerdict o f).settings = s.settings := rfl
@[simp] theorem State.modVerdict_save (s : State) (o : OutletId) (f : VerdictUnit → VerdictUnit) : (s.modVerdict o f).save = s.save := rfl
@[simp] theorem State.modVerdict_restarting (s : State) (o : OutletId) (f : VerdictUnit → VerdictUnit) : (s.modVerdict o f).restarting = s.restarting := rfl
@[simp] theorem State.modVerdict_time (s : State) (o : OutletId) (f : VerdictUnit → VerdictUnit) : (s.modVerdict o f).time = s.time := rfl
@[simp] theorem State.modVerdict_cues (s : State) (o : OutletId) (f : VerdictUnit → VerdictUnit) : (s.modVerdict o f).cues = s.cues := rfl
@[simp] theorem State.modVerdict_profiles (s : State) (o : OutletId) (f : VerdictUnit → VerdictUnit) : (s.modVerdict o f).profiles = s.profiles := rfl
@[simp] theorem State.modVerdict_directory (s : State) (o : OutletId) (f : VerdictUnit → VerdictUnit) : (s.modVerdict o f).directory = s.directory := rfl
@[simp] theorem State.modVerdict_pageSeq (s : State) (o : OutletId) (f : VerdictUnit → VerdictUnit) : (s.modVerdict o f).pageSeq = s.pageSeq := rfl
@[simp] theorem State.modVerdict_highPos (s : State) (o : OutletId) (f : VerdictUnit → VerdictUnit) : (s.modVerdict o f).highPos = s.highPos := rfl
@[simp] theorem State.modVerdict_lowPos (s : State) (o : OutletId) (f : VerdictUnit → VerdictUnit) : (s.modVerdict o f).lowPos = s.lowPos := rfl
@[simp] theorem State.modVerdict_port (s : State) (o : OutletId) (f : VerdictUnit → VerdictUnit) : (s.modVerdict o f).port = s.port := rfl
@[simp] theorem State.modVerdict_memory (s : State) (o : OutletId) (f : VerdictUnit → VerdictUnit) : (s.modVerdict o f).memory = s.memory := rfl
@[simp] theorem State.modVerdict_holds (s : State) (o : OutletId) (f : VerdictUnit → VerdictUnit) : (s.modVerdict o f).holds = s.holds := rfl
@[simp] theorem State.modVerdict_holdCounter (s : State) (o : OutletId) (f : VerdictUnit → VerdictUnit) : (s.modVerdict o f).holdCounter = s.holdCounter := rfl
@[simp] theorem State.modVerdict_evidence (s : State) (o : OutletId) (f : VerdictUnit → VerdictUnit) : (s.modVerdict o f).evidence = s.evidence := rfl
@[simp] theorem State.modVerdict_links (s : State) (o : OutletId) (f : VerdictUnit → VerdictUnit) : (s.modVerdict o f).links = s.links := rfl
@[simp] theorem State.modVerdict_free (s : State) (o : OutletId) (f : VerdictUnit → VerdictUnit) : (s.modVerdict o f).free = s.free := rfl
@[simp] theorem State.modVerdict_pending (s : State) (o : OutletId) (f : VerdictUnit → VerdictUnit) : (s.modVerdict o f).pending = s.pending := rfl

/-! ### State.modWriter -/

@[simp] theorem State.modWriter_powered (s : State) (o : OutletId) (f : Writer → Writer) : (s.modWriter o f).powered = s.powered := rfl
@[simp] theorem State.modWriter_loading (s : State) (o : OutletId) (f : Writer → Writer) : (s.modWriter o f).loading = s.loading := rfl
@[simp] theorem State.modWriter_flash (s : State) (o : OutletId) (f : Writer → Writer) : (s.modWriter o f).flash = s.flash := rfl
@[simp] theorem State.modWriter_imageCopy (s : State) (o : OutletId) (f : Writer → Writer) : (s.modWriter o f).imageCopy = s.imageCopy := rfl
@[simp] theorem State.modWriter_settings (s : State) (o : OutletId) (f : Writer → Writer) : (s.modWriter o f).settings = s.settings := rfl
@[simp] theorem State.modWriter_save (s : State) (o : OutletId) (f : Writer → Writer) : (s.modWriter o f).save = s.save := rfl
@[simp] theorem State.modWriter_restarting (s : State) (o : OutletId) (f : Writer → Writer) : (s.modWriter o f).restarting = s.restarting := rfl
@[simp] theorem State.modWriter_time (s : State) (o : OutletId) (f : Writer → Writer) : (s.modWriter o f).time = s.time := rfl
@[simp] theorem State.modWriter_cues (s : State) (o : OutletId) (f : Writer → Writer) : (s.modWriter o f).cues = s.cues := rfl
@[simp] theorem State.modWriter_profiles (s : State) (o : OutletId) (f : Writer → Writer) : (s.modWriter o f).profiles = s.profiles := rfl
@[simp] theorem State.modWriter_directory (s : State) (o : OutletId) (f : Writer → Writer) : (s.modWriter o f).directory = s.directory := rfl
@[simp] theorem State.modWriter_pageSeq (s : State) (o : OutletId) (f : Writer → Writer) : (s.modWriter o f).pageSeq = s.pageSeq := rfl
@[simp] theorem State.modWriter_highPos (s : State) (o : OutletId) (f : Writer → Writer) : (s.modWriter o f).highPos = s.highPos := rfl
@[simp] theorem State.modWriter_lowPos (s : State) (o : OutletId) (f : Writer → Writer) : (s.modWriter o f).lowPos = s.lowPos := rfl
@[simp] theorem State.modWriter_port (s : State) (o : OutletId) (f : Writer → Writer) : (s.modWriter o f).port = s.port := rfl
@[simp] theorem State.modWriter_memory (s : State) (o : OutletId) (f : Writer → Writer) : (s.modWriter o f).memory = s.memory := rfl
@[simp] theorem State.modWriter_holds (s : State) (o : OutletId) (f : Writer → Writer) : (s.modWriter o f).holds = s.holds := rfl
@[simp] theorem State.modWriter_holdCounter (s : State) (o : OutletId) (f : Writer → Writer) : (s.modWriter o f).holdCounter = s.holdCounter := rfl
@[simp] theorem State.modWriter_evidence (s : State) (o : OutletId) (f : Writer → Writer) : (s.modWriter o f).evidence = s.evidence := rfl
@[simp] theorem State.modWriter_links (s : State) (o : OutletId) (f : Writer → Writer) : (s.modWriter o f).links = s.links := rfl
@[simp] theorem State.modWriter_free (s : State) (o : OutletId) (f : Writer → Writer) : (s.modWriter o f).free = s.free := rfl
@[simp] theorem State.modWriter_pending (s : State) (o : OutletId) (f : Writer → Writer) : (s.modWriter o f).pending = s.pending := rfl

/-! ### The fields an update changes -/

@[simp] theorem State.useFree_free (s : State) (k : Nat) : (s.useFree k).free = s.free + k := rfl
@[simp] theorem State.create_evidence (s : State) (d : Draft) : (s.create d).evidence = s.evidence.create d := rfl
@[simp] theorem State.modTime_time (s : State) (f : TimeBase → TimeBase) : (s.modTime f).time = f s.time := rfl
@[simp] theorem State.modEvidence_evidence (s : State) (f : Evidence → Evidence) : (s.modEvidence f).evidence = f s.evidence := rfl
@[simp] theorem State.modPage_directory (s : State) (p : Nat) (f : PageEntry → PageEntry) :
    (s.modPage p f).directory = setPage s.directory p (f (pageAt s.directory p)) := rfl

theorem State.modLink_link (s : State) (l : Link) (f : LinkPort → LinkPort) : (s.modLink l f).link l = f (s.link l) := by
  cases l <;> rfl

theorem State.modLink_link_of_ne (s : State) {l m : Link} (h : m ≠ l) (f : LinkPort → LinkPort) :
    (s.modLink l f).link m = s.link m := by
  cases l <;> cases m <;> first | rfl | exact absurd rfl h

@[simp] theorem State.modLinks_link (s : State) (m : Link) (f : LinkPort → LinkPort) : (s.modLinks f).link m = f (s.link m) := by
  cases m <;> rfl

theorem State.modOutlet_outlet (s : State) (o : OutletId) (f : Outlet → Outlet) : (s.modOutlet o f).outlet o = f (s.outlet o) := by
  simp [State.outlet, State.modOutlet]

theorem State.modOutlet_outlet_of_ne (s : State) {o p : OutletId} (h : p ≠ o) (f : Outlet → Outlet) :
    (s.modOutlet o f).outlet p = s.outlet p := by
  have h' : (o : Nat) ≠ p := fun e => h (Fin.ext e.symm)
  simp [State.outlet, State.modOutlet, Vector.getElem_set_ne, h']

@[simp] theorem State.refresh_link_requests (s : State) (l : Link) : (s.refresh.link l).requests = (s.link l).requests := by
  cases l <;> rfl

@[simp] theorem State.refresh_outlet (s : State) (o : OutletId) : s.refresh.outlet o = s.outlet o := rfl

/-- Attention lines evaluated twice are evaluated once. -/
@[simp] theorem State.refresh_refresh (s : State) : s.refresh.refresh = s.refresh := rfl

end Sys2Proof.Machine
end

