-- ==== Sys2Proof/Laws/Ops.lean ====
section
/-! SUPPORT. What the shared operations do, said once: outcomes, requests, outlets, open orders and the creation of evidence. -/

namespace Sys2Proof.Machine

/-! ### Outcomes -/

/-- A command under a condition always answers a next state: its effect with the lines evaluated, or the state as it was. -/
theorem when_next (c : Bool) (e s : State) : when c e s = .next (if c then e.refresh else s) := by
  cases c <;> rfl

theorem done_eq (s : State) : done s = .next s.refresh := rfl

theorem idle_eq (s : State) : idle s = .next s := rfl

/-! ### Links -/

theorem PerLink.get_modify_same {α : Type} (p : PerLink α) (f : α → α) (l : Link) : (p.modify f l).get l = f (p.get l) := by
  cases l <;> rfl

theorem PerLink.get_modify_of_ne {α : Type} (p : PerLink α) (f : α → α) {l m : Link} (h : m ≠ l) :
    (p.modify f l).get m = p.get m := by
  cases l <;> cases m <;> first | rfl | exact absurd rfl h

theorem PerLink.modify_modify {α : Type} (p : PerLink α) (f g : α → α) (l : Link) :
    (p.modify f l).modify g l = p.modify (fun x => g (f x)) l := by
  cases l <;> rfl

/-- Two changes of one link are one change. -/
theorem State.modLink_modLink (s : State) (l : Link) (f g : LinkPort → LinkPort) :
    (s.modLink l f).modLink l g = s.modLink l fun p => g (f p) := by
  cases l <;> rfl

theorem FlagSet.has_add (f : FlagSet) (x y : Flag) : (f.add x).has y = (f.has y || x == y) := by
  cases x <;> cases y <;> simp [FlagSet.add, FlagSet.has]

theorem FlagSet.has_minus (f g : FlagSet) (y : Flag) : (f.minus g).has y = (f.has y && !g.has y) := by
  cases y <;> rfl

theorem FlagSet.meets_iff (f g : FlagSet) : f.meets g = true ↔ ∃ x : Flag, f.has x = true ∧ g.has x = true := by
  constructor
  · intro h
    simp only [FlagSet.meets, Bool.or_eq_true, Bool.and_eq_true] at h
    rcases h with ((((((h | h) | h) | h) | h) | h) | h) | h
    exacts [⟨.verdict, h⟩, ⟨.breach, h⟩, ⟨.record, h⟩, ⟨.time, h⟩, ⟨.queueEmpty, h⟩, ⟨.cue, h⟩, ⟨.linkError, h⟩, ⟨.settings, h⟩]
  · rintro ⟨x, hf, hg⟩
    cases x <;> simp_all [FlagSet.meets, FlagSet.has]

/-- The level a port's attention line is given (R171, R173). -/
theorem LinkPort.level_iff (p : LinkPort) (c : Bool) :
    p.level c = true ↔ p.resetLine = false ∧
      ((∃ x : Flag, p.flags.has x = true ∧ p.mask.flags.has x = true) ∨ (p.mask.evidence = true ∧ c = true)) := by
  rw [← FlagSet.meets_iff]
  simp [LinkPort.level]

/-- Evaluated afresh, both attention lines are right. -/
theorem State.refresh_attention (s : State) : AttentionRight s.refresh := by
  intro l
  cases l <;> exact LinkPort.level_iff _ _

/-! ### Requests -/

/-- A taken request answered is `State.answered`. -/
theorem State.takeRequest_answer (s : State) (l : Link) (r : Request) (status : Status) (body : Body) :
    (s.takeRequest l).answer l r status body = s.answered l r status body := by
  cases l <;> rfl

theorem State.nextRequest_of_waits {s : State} {l : Link} {r : Request} (h : Waits s l r) : s.nextRequest l = some r := by
  obtain ⟨hp, hh, hr⟩ := h
  simp [State.nextRequest, hp, hh, hr]

/-- What a request's command does: nothing where its request is not at the head of its link's queue; BUSY while loading; RIGHTS for
a link that may not make it; and otherwise its owner's effect (R163). -/
theorem serve_of_waits {s : State} {l : Link} {r : Request} (code : Byte) (allowed : Bool) (owner : Request → State → State)
    (h : Waits s l r) :
    serve l code allowed owner s =
      if r.code ≠ code then .next s
      else if s.loading then .next (s.answered l r .busy .none).refresh
      else if allowed then .next (owner r (s.takeRequest l)).refresh
      else .next (s.answered l r .rights .none).refresh := by
  unfold serve
  rw [State.nextRequest_of_waits h]
  simp only [done, idle, State.takeRequest_answer]
  cases allowed <;> simp

/-- A request that its link may make, carried out. -/
theorem serve_of_serving {s : State} {l : Link} {r : Request} {code : Byte} (owner : Request → State → State)
    (h : Serving s l code r) : serve l code true owner s = .next (owner r (s.takeRequest l)).refresh := by
  rw [serve_of_waits code true owner h.1]
  simp [h.2.1, h.2.2]

/-! ### Outlets -/

/-- Two changes of one outlet are one change. -/
theorem State.modOutlet_modOutlet (s : State) (o : OutletId) (f g : Outlet → Outlet) :
    (s.modOutlet o f).modOutlet o g = s.modOutlet o fun t => g (f t) := by
  simp [State.modOutlet]

theorem State.outlet_modOutlet_same (s : State) (o : OutletId) (f : Outlet → Outlet) :
    (s.modOutlet o f).outlet o = f (s.outlet o) := by
  simp [State.modOutlet, State.outlet]

theorem State.outlet_modOutlet_of_ne (s : State) {o p : OutletId} (h : p ≠ o) (f : Outlet → Outlet) :
    (s.modOutlet o f).outlet p = s.outlet p := by
  have h' : o.val ≠ p.val := fun e => h (Fin.ext e.symm)
  simp [State.modOutlet, State.outlet, Vector.getElem_set_ne, h']

/-- A change of an outlet's parts that leaves it as it was is no change. -/
theorem State.modOutlet_self (s : State) (o : OutletId) (f : Outlet → Outlet) (h : f (s.outlet o) = s.outlet o) :
    s.modOutlet o f = s := by
  have : s.outlets.set o (f s.outlets[o]) = s.outlets := by
    apply Vector.ext
    intro i hi
    by_cases e : o.val = i
    · subst e
      simpa [State.outlet] using h
    · simp [Vector.getElem_set_ne, e]
  exact congrArg (fun v => { s with outlets := v }) this

/-! ### Things taken in either order -/

/-- A list taken in any order holds the same items (log entry 4). -/
theorem shuffle_perm {α : Type} (n fuel : Nat) (xs : List α) : (shuffle n fuel xs).Perm xs := by
  induction fuel generalizing xs with
  | zero => exact .refl _
  | succ fuel ih =>
    match xs with
    | [] => exact .refl _
    | [x] => exact .refl _
    | x :: y :: rest =>
      simp only [shuffle]
      split
      · rename_i z hz
        obtain ⟨hi, rfl⟩ := List.getElem?_eq_some_iff.mp hz
        exact ((ih _).cons _).trans (List.getElem_cons_eraseIdx_perm hi)
      · exact .refl _

theorem State.shuffled_perm {α : Type} (s : State) (xs : List α) : (s.shuffled xs).Perm xs := shuffle_perm _ _ _

theorem State.mem_shuffled {α : Type} (s : State) (xs : List α) (x : α) : x ∈ s.shuffled xs ↔ x ∈ xs :=
  (s.shuffled_perm xs).mem_iff

/-! ### Evidence -/

/-- Creation moves the sequence on, and the FIFO only grows, by at most the one record (R148, R150). -/
theorem Evidence.create_spec (e : Evidence) (d : Draft) :
    (e.create d).sequence = e.sequence + 1 ∧ (e.create d).head = e.head ∧ (e.create d).tail = e.tail ∧
      (e.create d).cursor = e.cursor ∧ (e.create d).skipped = e.skipped ∧
      ((e.create d).fifo = e.fifo ∨
        (e.fifo.length < 64 ∧
          (e.create d).fifo = e.fifo ++ [{ draft := d, sequence := e.sequence, lossBefore := e.lossPending }])) := by
  unfold Evidence.create
  split <;> simp_all [evidenceFifoSize]

theorem Evidence.create_room {e : Evidence} (h : e.fifo.length < 64) (d : Draft) :
    e.create d =
      { e with sequence := e.sequence + 1, lossPending := false,
               fifo := e.fifo ++ [{ draft := d, sequence := e.sequence, lossBefore := e.lossPending }] } := by
  simp [Evidence.create, evidenceFifoSize, h]

theorem Evidence.create_bound {e : Evidence} (h : e.fifo.length ≤ 64) (d : Draft) : (e.create d).fifo.length ≤ 64 := by
  unfold Evidence.create evidenceFifoSize
  split
  · simp only [List.length_append, List.length_cons, List.length_nil]; omega
  · exact h

theorem State.createAll_evidence (s : State) (ds : List Draft) :
    (s.createAll ds).evidence = ds.foldl Evidence.create s.evidence := by
  induction ds generalizing s with
  | nil => rfl
  | cons d ds ih => exact ih (s.create d)

/-- Records handed over only add to the FIFO. -/
theorem State.createAll_fifo (s : State) (ds : List Draft) :
    ∃ more : List EvidenceRecord, (s.createAll ds).evidence.fifo = s.evidence.fifo ++ more := by
  induction ds generalizing s with
  | nil => exact ⟨[], by simp [State.createAll]⟩
  | cons d ds ih =>
    obtain ⟨more, h⟩ := ih (s.create d)
    obtain ⟨_, _, _, _, _, hf | ⟨_, hf⟩⟩ := s.evidence.create_spec d
    · exact ⟨more, by simpa [State.createAll, State.create, hf] using h⟩
    · exact ⟨_ :: more, by simpa [State.createAll, State.create, hf] using h⟩

/-- Records handed over change the evidence alone. -/
theorem State.createAll_eq (s : State) (ds : List Draft) : { s.createAll ds with evidence := s.evidence } = s := by
  induction ds generalizing s with
  | nil => rfl
  | cons d ds ih =>
    have h := ih (s.create d)
    have : s.createAll (d :: ds) = (s.create d).createAll ds := rfl
    rw [this]
    generalize (s.create d).createAll ds = t at h
    have h' := congrArg (fun u : State => { u with evidence := s.evidence }) h
    exact h'

/-! ### Link reset -/

/-- A reset keeps the reads that wait for their grants (R173). -/
@[simp] theorem LinkPort.afterReset_fetches (p : LinkPort) (keep : List Tag) (mask : Mask) :
    (p.afterReset keep mask).fetches = p.fetches := rfl

/-- A reset gives up every read that waits for its grant (R173). -/
@[simp] theorem LinkPort.afterReset_givenUp (p : LinkPort) (keep : List Tag) (mask : Mask) :
    (p.afterReset keep mask).givenUp = p.fetches.length := rfl

/-! ### Air time -/

/-- A tick is the next frame (R16). -/
theorem AirTime.tick_eq (a : AirTime) : a.tick = nextFrame a := by
  obtain ⟨s, f⟩ := a
  simp only [AirTime.tick, AirTime.add, AirTime.ofFrames, AirTime.frames, nextFrame]
  by_cases h : f.val = 24
  · rw [if_pos h]
    congr 1
    · apply BitVec.eq_of_toNat_eq
      simp [h, BitVec.toNat_add, show s.toNat * 25 + 24 + 1 = (s.toNat + 1) * 25 by omega]
    · apply Fin.ext
      simp only [h, show s.toNat * 25 + 24 + 1 = (s.toNat + 1) * 25 by omega]
      omega
  · rw [if_neg h]
    have hf := f.isLt
    congr 1
    · apply BitVec.eq_of_toNat_eq
      have hs := s.isLt
      simp only [BitVec.toNat_ofNat]
      omega
    · apply Fin.ext
      have hl : f < Fin.last 24 := Fin.lt_def.mpr (by simp only [Fin.val_last]; omega)
      rw [Fin.val_add_one_of_lt hl]
      simp only
      omega

end Sys2Proof.Machine
end

