-- ==== Sys2Proof/Laws/Bytes.lean ====
section
/-! SUPPORT. Byte layouts: how long the fields are, and that little-endian fields are read back. -/

namespace Sys2Proof.Machine

/-! ### Lengths -/

@[simp] theorem length_le (n v : Nat) : (le n v).length = n := by
  induction n generalizing v with
  | zero => rfl
  | succ n ih => simp [le, ih]

@[simp] theorem length_leSigned (n : Nat) (v : Int) : (leSigned n v).length = n := length_le _ _

@[simp] theorem length_byte (v : Nat) : (byte v).length = 1 := rfl

@[simp] theorem length_yesNo (b : Bool) : (yesNo b).length = 1 := rfl

@[simp] theorem length_idBytes (id : BitVec 32) : (idBytes id).length = 4 := length_le _ _

@[simp] theorem length_airBytes (t : AirTime) : (airBytes t).length = 5 := by simp [airBytes]

@[simp] theorem length_airBytesOr (t : Option AirTime) : (airBytesOr t).length = 5 := by cases t <;> simp [airBytesOr]

@[simp] theorem length_rfnBytes (n : Rfn) : (rfnBytes n).length = 6 := length_le _ _

@[simp] theorem length_rfnBytesOr (n : Option Rfn) : (rfnBytesOr n).length = 6 := by cases n <;> simp [rfnBytesOr]

@[simp] theorem length_codeBytes (c : Int) : (codeBytes c).length = 2 := length_leSigned _ _

@[simp] theorem length_codeBytesOr (c : Option Int) : (codeBytesOr c).length = 2 := by cases c <;> simp [codeBytesOr]

@[simp] theorem length_languageBytes (g : Option Language) : (languageBytes g).length = 3 := by cases g <;> rfl

@[simp] theorem length_holdResultBytes (h : HoldResult) : (holdResultBytes h).length = 3 := by
  cases h <;> simp [holdResultBytes]

@[simp] theorem length_originBytes (h : HoldOrigin) : (originBytes h).length = 5 := by cases h <;> simp [originBytes]

@[simp] theorem length_latenessBytes (n : Nat) : (latenessBytes n).length = 4 := by
  unfold latenessBytes
  split <;> simp

/-- Bytes padded to a length they do not exceed have that length. -/
theorem length_padTo {n : Nat} {bs : Bytes} (h : bs.length ≤ n) : (padTo n bs).length = n := by
  simp [padTo]
  omega

/-! ### Little-endian fields -/

/-- A number written in `n` bytes is read back (R183). -/
theorem unLe_le {n v : Nat} (h : v < 256 ^ n) : unLe (le n v) = v := by
  induction n generalizing v with
  | zero => simp at h; simp [le, unLe, h]
  | succ n ih =>
    have hv : v / 256 < 256 ^ n := by
      rw [Nat.div_lt_iff_lt_mul (by decide)]
      rwa [Nat.pow_succ] at h
    simp only [le, unLe, ih hv, BitVec.toNat_ofNat]
    omega

/-- A number taken off the bytes it was written in, with the bytes behind it left (R183). -/
theorem takeNat_le {n v : Nat} (h : v < 256 ^ n) (bs : Bytes) : takeNat n (le n v ++ bs) = some (v, bs) := by
  simp [takeNat, takeBytes, unLe_le h]

/-- Bytes under a good check are a frame exactly when their fields end at the last of them (R2). -/
theorem readFrame_sealed (front : Bytes) : readFrame (front ++ le 4 (crc32 front).toNat) = atEnd (takeFrame front) := by
  have cut : takeBytes ((front ++ le 4 (crc32 front).toNat).length - 4) (front ++ le 4 (crc32 front).toNat) =
      some (front, le 4 (crc32 front).toNat) := by
    simp [takeBytes]
  have good : unLe (le 4 (crc32 front).toNat) = (crc32 front).toNat := unLe_le (by have := (crc32 front).isLt; omega)
  unfold readFrame
  rw [cut]
  simp [good]

end Sys2Proof.Machine
end

