-- ==== Sys2Proof/Laws/Stores.lean ====
section
/-! SUPPORT. Record memory and the Page Directory: what a read finds after a write, and that every operation keeps the canonical
forms. -/

namespace Sys2Proof.Machine

/-! ### Record memory -/

/-- Cells made from bytes lie at the bytes' addresses. -/
theorem cellsOf_mem {a : Nat} {bs : Bytes} {c : Host.Cell} (h : c ∈ cellsOf a bs) :
    a ≤ c.1 ∧ c.1 < a + bs.length ∧ c.2 ≠ unwritten := by
  induction bs generalizing a with
  | nil => simp [cellsOf] at h
  | cons b bs ih =>
    simp only [cellsOf] at h
    split at h
    · have := ih h
      simp only [List.length_cons]
      exact ⟨by omega, by omega, this.2.2⟩
    · rcases List.mem_cons.mp h with rfl | h
      · exact ⟨Nat.le_refl _, by simp, by assumption⟩
      · have := ih h
        simp only [List.length_cons]
        exact ⟨by omega, by omega, this.2.2⟩

theorem cellsOf_pairwise (a : Nat) (bs : Bytes) : (cellsOf a bs).Pairwise fun c d => c.1 < d.1 := by
  induction bs generalizing a with
  | nil => exact .nil
  | cons b bs ih =>
    simp only [cellsOf]
    split
    · exact ih _
    · refine .cons (fun c h => ?_) (ih _)
      have := cellsOf_mem h
      simp only
      omega

/-- What a search for an address finds in cells made from bytes. -/
theorem cellsOf_find (a x : Nat) (bs : Bytes) :
    (match (cellsOf a bs).find? fun c => c.1 == x with | some c => c.2 | none => unwritten) =
      if a ≤ x ∧ x < a + bs.length then bs.getD (x - a) 0 else unwritten := by
  induction bs generalizing a with
  | nil => simp [cellsOf]
  | cons b bs ih =>
    by_cases hb : b = unwritten
    · simp only [cellsOf, if_pos hb, ih]
      by_cases hx : x = a
      · subst hx
        simp [hb, unwritten]
      · by_cases h1 : a + 1 ≤ x ∧ x < a + 1 + bs.length
        · rw [if_pos h1, if_pos (by simp only [List.length_cons]; omega)]
          obtain ⟨k, rfl⟩ : ∃ k, x = a + 1 + k := ⟨x - (a + 1), by omega⟩
          simp [show a + 1 + k - a = k + 1 by omega]
        · rw [if_neg h1, if_neg (by simp only [List.length_cons]; omega)]
    · simp only [cellsOf, if_neg hb, List.find?_cons]
      by_cases hx : x = a
      · subst hx
        simp
      · rw [show ((a == x) = false) by simp; omega]
        simp only [ih]
        by_cases h1 : a + 1 ≤ x ∧ x < a + 1 + bs.length
        · rw [if_pos h1, if_pos (by simp only [List.length_cons]; omega)]
          obtain ⟨k, rfl⟩ : ∃ k, x = a + 1 + k := ⟨x - (a + 1), by omega⟩
          simp [show a + 1 + k - a = k + 1 by omega]
        · rw [if_neg h1, if_neg (by simp only [List.length_cons]; omega)]

theorem find?_filter_of_imp {α : Type} (p q : α → Bool) (xs : List α) (h : ∀ x, q x = true → p x = true) :
    (xs.filter p).find? q = xs.find? q := by
  induction xs with
  | nil => rfl
  | cons x xs ih =>
    by_cases hp : p x = true
    · simp [List.filter_cons_of_pos hp, List.find?_cons, ih]
    · have hq : q x = false := by
        cases hh : q x
        · rfl
        · exact absurd (h x hh) hp
      simp [hp, hq, ih]

theorem find?_eq_none_of {α : Type} (q : α → Bool) (xs : List α) (h : ∀ x ∈ xs, q x = false) : xs.find? q = none := by
  simpa using h

/-- A byte read after bytes are written: theirs at their addresses, and elsewhere what it was. -/
theorem readByte_writeBytes (m : List Host.Cell) (a x : Nat) (bs : Bytes) :
    readByte (writeBytes m a bs) x = if a ≤ x ∧ x < a + bs.length then bs.getD (x - a) 0 else readByte m x := by
  have hmem : ∀ c ∈ cellsOf a bs, a ≤ c.1 ∧ c.1 < a + bs.length := fun c h => ⟨(cellsOf_mem h).1, (cellsOf_mem h).2.1⟩
  unfold readByte writeBytes
  rw [List.append_assoc, List.find?_append, List.find?_append]
  by_cases h1 : x < a
  · rw [find?_filter_of_imp _ _ _ (by intro c hc; simp at hc; simp; omega), if_neg (by omega),
      find?_eq_none_of _ (cellsOf a bs) (by intro c hc; have := hmem c hc; simp; omega),
      find?_eq_none_of _ (m.filter fun c => decide (a + bs.length ≤ c.1)) (by intro c hc; simp at hc; simp; omega)]
    simp
  · rw [find?_eq_none_of _ (m.filter fun c => decide (c.1 < a)) (by intro c hc; simp at hc; simp; omega)]
    by_cases h2 : x < a + bs.length
    · rw [if_pos ⟨by omega, h2⟩,
        find?_eq_none_of _ (m.filter fun c => decide (a + bs.length ≤ c.1)) (by intro c hc; simp at hc; simp; omega)]
      have h := cellsOf_find a x bs
      rw [if_pos ⟨by omega, h2⟩] at h
      revert h
      cases (cellsOf a bs).find? fun c => c.1 == x <;> intro h <;> simpa using h
    · rw [if_neg (by omega), find?_eq_none_of _ (cellsOf a bs) (by intro c hc; have := hmem c hc; simp; omega),
        find?_filter_of_imp _ _ _ (by intro c hc; simp at hc; simp; omega)]
      simp

theorem memoryWf_iff (m : List Host.Cell) :
    memoryWf m = true ↔ (m.Pairwise fun c d => c.1 < d.1) ∧ ∀ c ∈ m, c.2 ≠ unwritten := by
  simp [memoryWf]

/-- Writing bytes keeps record memory in its canonical form. -/
theorem memoryWf_writeBytes {m : List Host.Cell} (h : memoryWf m = true) (a : Nat) (bs : Bytes) :
    memoryWf (writeBytes m a bs) = true := by
  rw [memoryWf_iff] at h ⊢
  obtain ⟨hp, hn⟩ := h
  unfold writeBytes
  refine ⟨?_, ?_⟩
  · rw [List.pairwise_append, List.pairwise_append]
    refine ⟨⟨hp.filter _, cellsOf_pairwise a bs, ?_⟩, hp.filter _, ?_⟩
    · intro c hc d hd
      have := cellsOf_mem hd
      simp at hc
      omega
    · intro c hc d hd
      simp only [List.mem_filter, decide_eq_true_eq] at hd
      rcases List.mem_append.mp hc with hc | hc
      · simp at hc
        omega
      · have := cellsOf_mem hc
        omega
  · intro c hc
    simp only [List.mem_append, List.mem_filter] at hc
    rcases hc with (hc | hc) | hc
    · exact hn c hc.1
    · exact (cellsOf_mem hc).2.2
    · exact hn c hc.1

/-! ### Page Directory -/

/-- An entry looked up after one is set: the new one at its page, and elsewhere what it was. -/
theorem pageAt_setPage (d : List (Nat × PageEntry)) (p q : Nat) (e : PageEntry) :
    pageAt (setPage d p e) q = if q = p then e else pageAt d q := by
  have hm : ∀ x ∈ (if e = emptyPage then [] else [(p, e)]), x.1 = p := by
    intro x hx
    split at hx
    · simp at hx
    · simp only [List.mem_singleton] at hx
      rw [hx]
  unfold pageAt setPage
  rw [List.append_assoc, List.find?_append, List.find?_append]
  rcases Nat.lt_trichotomy q p with h | h | h
  · rw [find?_filter_of_imp (fun x : Nat × PageEntry => decide (x.1 < p)) _ _ (by intro c hc; simp at hc; simp; omega), if_neg (show ¬q = p by omega),
      find?_eq_none_of _ (d.filter fun x => decide (p < x.1)) (by intro c hc; simp at hc; simp; omega),
      find?_eq_none_of _ (if e = emptyPage then [] else [(p, e)]) (by intro c hc; have := hm c hc; simp; omega)]
    simp
  · subst h
    rw [find?_eq_none_of _ (d.filter fun x => decide (x.1 < q)) (by intro c hc; simp at hc; simp; omega),
      find?_eq_none_of _ (d.filter fun x => decide (q < x.1)) (by intro c hc; simp at hc; simp; omega)]
    by_cases he : e = emptyPage <;> simp [he]
  · have hf : ∀ x : Nat × PageEntry, (x.1 == q) = true → decide (p < x.1) = true := by
      intro c hc
      simp at hc
      simp
      omega
    rw [find?_eq_none_of _ (d.filter fun x => decide (x.1 < p)) (by intro c hc; simp at hc; simp; omega), if_neg (show ¬q = p by omega),
      find?_filter_of_imp (fun x : Nat × PageEntry => decide (p < x.1)) _ _ hf,
      find?_eq_none_of _ (if e = emptyPage then [] else [(p, e)]) (by intro c hc; have := hm c hc; simp; omega)]
    simp

theorem directoryWf_iff (d : List (Nat × PageEntry)) :
    directoryWf d = true ↔ (d.Pairwise fun x y => x.1 < y.1) ∧ ∀ x ∈ d, x.2 ≠ emptyPage := by
  simp [directoryWf]

/-- Setting an entry keeps the Page Directory in its canonical form. -/
theorem directoryWf_setPage {d : List (Nat × PageEntry)} (h : directoryWf d = true) (p : Nat) (e : PageEntry) :
    directoryWf (setPage d p e) = true := by
  rw [directoryWf_iff] at h ⊢
  obtain ⟨hp, hn⟩ := h
  have hm : ∀ x ∈ (if e = emptyPage then [] else [(p, e)]), x.1 = p ∧ x.2 ≠ emptyPage := by
    intro x hx
    split at hx
    · simp at hx
    · simp at hx
      subst hx
      exact ⟨rfl, by assumption⟩
  unfold setPage
  refine ⟨?_, ?_⟩
  · rw [List.pairwise_append, List.pairwise_append]
    refine ⟨⟨hp.filter _, ?_, ?_⟩, hp.filter _, ?_⟩
    · split <;> simp
    · intro c hc x hx
      have := hm x hx
      simp at hc
      omega
    · intro c hc x hx
      simp only [List.mem_filter, decide_eq_true_eq] at hx
      rcases List.mem_append.mp hc with hc | hc
      · simp at hc
        omega
      · have := hm c hc
        omega
  · intro x hx
    simp only [List.mem_append, List.mem_filter] at hx
    rcases hx with (hx | hx) | hx
    · exact hn x hx.1
    · exact (hm x hx).2
    · exact hn x hx.1

@[simp] theorem State.pageAt_modPage (s : State) (p q : Nat) (f : PageEntry → PageEntry) :
    pageAt (s.modPage p f).directory q = if q = p then f (pageAt s.directory p) else pageAt s.directory q :=
  pageAt_setPage _ _ _ _

end Sys2Proof.Machine
end

