-- ==== Sys2Proof/Laws/Rings.lean ====
section
/-! SUPPORT. The two rings: pages put in sequence order, the entries that PAGE-LIST returns, and what a burst settles in the evidence
ring. -/

namespace Sys2Proof.Machine

/-! ### Pages in sequence order (R115, R126) -/

theorem State.insertPage_perm (s : State) (x : Nat × PageEntry) (xs : List (Nat × PageEntry)) :
    (s.insertPage x xs).Perm (x :: xs) := by
  induction xs with
  | nil => exact .refl _
  | cons y ys ih =>
    unfold State.insertPage
    split
    · exact .refl _
    · exact (ih.cons y).trans (.swap x y ys)

theorem State.insertPage_pairwise (s : State) (x : Nat × PageEntry) {xs : List (Nat × PageEntry)}
    (h : xs.Pairwise fun y z => s.pageAge z ≤ s.pageAge y) :
    (s.insertPage x xs).Pairwise fun y z => s.pageAge z ≤ s.pageAge y := by
  induction xs with
  | nil => simp [State.insertPage]
  | cons y ys ih =>
    obtain ⟨first, rest⟩ := List.pairwise_cons.mp h
    unfold State.insertPage
    split
    · rename_i older
      refine List.pairwise_cons.mpr ⟨fun z hz => ?_, h⟩
      rcases List.mem_cons.mp hz with rfl | hz
      · exact older.le
      · exact (first z hz).trans older.le
    · refine List.pairwise_cons.mpr ⟨fun z hz => ?_, ih rest⟩
      rcases List.mem_cons.mp ((s.insertPage_perm x ys).mem_iff.mp hz) with rfl | hz
      · omega
      · exact first z hz

/-- Pages put in sequence order are the same pages, none younger before an older (R115). -/
theorem State.inSequence_spec (s : State) (xs : List (Nat × PageEntry)) :
    (s.inSequence xs).Perm xs ∧ (s.inSequence xs).Pairwise fun y z => s.pageAge z ≤ s.pageAge y := by
  induction xs with
  | nil => exact ⟨.refl _, .nil⟩
  | cons x xs ih => exact ⟨(s.insertPage_perm x _).trans (ih.1.cons x), s.insertPage_pairwise x ih.2⟩

/-- The entries that PAGE-LIST may return are the ring's that meet its tests, in sequence order (R126). -/
theorem State.listed_spec (s : State) (a : PageListArgs) :
    (s.listed a).Perm ((s.ringPages a.outlet).filter fun x =>
      (inFilter a.filter x.2.state && x.2.intersects a.first a.last && (a.start == 0 || decide (s.pageAge x ≤ s.age a.start))) &&
        (x.2.state != .empty && x.2.sequence.isSome)) ∧
      (s.listed a).Pairwise fun x y => s.pageAge y ≤ s.pageAge x := by
  obtain ⟨same, ordered⟩ := s.inSequence_spec ((s.ringPages a.outlet).filter fun x => x.2.state != .empty && x.2.sequence.isSome)
  refine ⟨?_, ordered.filter _⟩
  rw [← List.filter_filter]
  exact same.filter _

/-! ### The evidence burst (R152, R154) -/

/-- What a burst of records at the positions from `p` on settles, where the ring is not over-full and the cursor lies between tail
and head: `k` of its records overwrite, each moving the tail and counting as lost; the cursor is passed by those it does not lie
ahead of; and the records that overwrite, the last `k`, carry LOSS_BEFORE (R152, R154). -/
theorem Evidence.settleBurst_spec (c : Nat) (e : Evidence) (p : BitVec 32) (rs : List EvidenceRecord) (hc : c ≤ 131072)
    (room : (p - e.tail).toNat ≤ c) (small : rs.length ≤ 64) (behind : (e.cursor - e.tail).toNat ≤ (p - e.tail).toNat) :
    let k := (p - e.tail).toNat + rs.length - c
    let b := (e.cursor - e.tail).toNat
    Evidence.settleBurst c e p rs =
      ({ e with
          tail := e.tail + BitVec.ofNat 32 k
          lost := if k = 0 then e.lost else min 4294967295 (e.lost + k)
          cursor := if b < k then e.tail + BitVec.ofNat 32 k else e.cursor
          skipped := if b < k then min 4294967295 (e.skipped + (k - b)) else e.skipped },
        rs.mapIdx fun i r => if c ≤ (p - e.tail).toNat + i then { r with lossBefore := true } else r) := by
  induction rs generalizing e p with
  | nil =>
    have none_over : (p - e.tail).toNat + 0 - c = 0 := by omega
    simp only [Evidence.settleBurst, List.length_nil, none_over, List.mapIdx_nil, Nat.not_lt_zero, if_false, if_true,
      BitVec.add_zero]
  | cons r rs ih =>
    simp only [List.length_cons] at small
    unfold Evidence.settleBurst
    split
    · rename_i full
      have same : p + 1 - e.overwrite.tail = p - e.tail := by simp only [Evidence.overwrite]; bv_omega
      have dist : (e.overwrite.cursor - e.overwrite.tail).toNat = (e.cursor - e.tail).toNat - 1 := by
        simp only [Evidence.overwrite]
        split <;> bv_omega
      have step := ih e.overwrite (p + 1) (by rw [same]; exact room) (by omega) (by rw [same, dist]; omega)
      simp only [same, dist] at step
      simp only [step]
      have count : (p - e.tail).toNat = c := by omega
      refine Prod.ext ?_ ?_
      · simp only [Evidence.overwrite, satAdd, max32, count, List.length_cons]
        have k1 : c + rs.length - c = rs.length := by omega
        have k2 : c + (rs.length + 1) - c = rs.length + 1 := by omega
        have here : (e.cursor = e.tail) ↔ (e.cursor - e.tail).toNat = 0 := by constructor <;> intro h <;> bv_omega
        rw [k1, k2]
        simp only [here, Evidence.mk.injEq, true_and]
        refine ⟨by bv_omega, ?_, ?_, ?_⟩ <;> split <;> split <;> (try split) <;> first | omega | bv_omega
      · simp only [List.mapIdx_cons, count]
        simp
    · rename_i free
      have next : (p + 1 - e.tail).toNat = (p - e.tail).toNat + 1 := by bv_omega
      have step := ih e (p + 1) (by omega) (by omega) (by omega)
      simp only [next] at step
      simp only [step, List.length_cons]
      have count : (p - e.tail).toNat + 1 + rs.length - c = (p - e.tail).toNat + (rs.length + 1) - c := by omega
      rw [count]
      refine Prod.ext rfl ?_
      have free : ¬c ≤ (p - e.tail).toNat := free
      simp only [List.mapIdx_cons, Nat.add_zero, if_neg free, Nat.add_assoc, Nat.add_comm 1]

end Sys2Proof.Machine
end

