-- ==== Sys2Proof/Laws/Ticks.lean ====
section
/-! SUPPORT. What a frame tick may change: the parts of the state it reaches, and the records and flags it only adds to. -/

namespace Sys2Proof.Machine

/-- Two states that differ at most in the outlets, the link ports, the evidence and the count of free values, the second of them
with every flag of the first and its evidence but for records created since. -/
structure Grows (s t : State) : Prop where
  frame : { t with outlets := s.outlets, links := s.links, evidence := s.evidence, free := s.free } = s
  flags : ∀ (l : Link) (x : Flag), (s.link l).flags.has x = true → (t.link l).flags.has x = true
  records : ∃ ds : List Draft, t.evidence = ds.foldl Evidence.create s.evidence

theorem Grows.refl (s : State) : Grows s s := ⟨rfl, fun _ _ h => h, [], rfl⟩

theorem Grows.trans {s t u : State} (h : Grows s t) (k : Grows t u) : Grows s u := by
  obtain ⟨a, ha⟩ := h.records
  obtain ⟨b, hb⟩ := k.records
  refine ⟨?_, fun l x hx => k.flags l x (h.flags l x hx), a ++ b, by rw [hb, ha, List.foldl_append]⟩
  have h' := congrArg (fun v : State => { v with outlets := s.outlets, links := s.links, evidence := s.evidence, free := s.free })
    k.frame
  exact h'.trans h.frame

theorem Grows.time {s t : State} (h : Grows s t) : t.time = s.time := (congrArg State.time h.frame :)

theorem Grows.settings {s t : State} (h : Grows s t) : t.settings = s.settings := (congrArg State.settings h.frame :)

theorem Grows.modOutlet (s : State) (o : OutletId) (f : Outlet → Outlet) : Grows s (s.modOutlet o f) :=
  ⟨rfl, fun _ _ h => h, [], rfl⟩

theorem Grows.useFree (s : State) (n : Nat) : Grows s (s.useFree n) := ⟨rfl, fun _ _ h => h, [], rfl⟩

theorem Grows.create (s : State) (d : Draft) : Grows s (s.create d) := ⟨rfl, fun _ _ h => h, [d], rfl⟩

/-- Records created only add to the FIFO. -/
theorem Grows.fifo {s t : State} (h : Grows s t) : ∃ more : List EvidenceRecord, t.evidence.fifo = s.evidence.fifo ++ more := by
  obtain ⟨ds, h⟩ := h.records
  obtain ⟨more, k⟩ := s.createAll_fifo ds
  refine ⟨more, h ▸ k ▸ ?_⟩
  rw [State.createAll_evidence]

/-- A record told of stays told of as the state grows, and one created is told of. -/
theorem Told.grows {s t u : State} {d : Draft} (h : Told s t d) (k : Grows t u) : Told s u d := by
  obtain ⟨a, ha, hd⟩ := h
  obtain ⟨b, hb⟩ := k.records
  exact ⟨a ++ b, by rw [hb, ha, List.foldl_append], List.mem_append_left b hd⟩

theorem Grows.told_create {s t : State} (h : Grows s t) (d : Draft) : Told s (t.create d) d := by
  obtain ⟨a, ha⟩ := h.records
  exact ⟨a ++ [d], by simp [State.create, ha, List.foldl_append], by simp⟩

theorem Grows.createAll (s : State) (ds : List Draft) : Grows s (s.createAll ds) := by
  induction ds generalizing s with
  | nil => exact .refl s
  | cons d ds ih => exact (Grows.create s d).trans (ih _)

theorem Grows.createAnyOrder (s : State) (ds : List Draft) : Grows s (s.createAnyOrder ds) :=
  (Grows.createAll s _).trans (.useFree _ _)

theorem Grows.modLink (s : State) (l : Link) (f : LinkPort → LinkPort) (h : ∀ x, (s.link l).flags.has x = true → (f (s.link l)).flags.has x = true) :
    Grows s (s.modLink l f) := by
  refine ⟨rfl, ?_, [], rfl⟩
  intro m x hx
  cases l <;> cases m <;> first | exact hx | exact h x hx

theorem Grows.raiseBoth (s : State) (x : Flag) : Grows s (s.raiseBoth x) := by
  refine ⟨rfl, ?_, [], rfl⟩
  intro m y hy
  have : ((s.raiseBoth x).link m).flags = (s.link m).flags.add x := by cases m <;> rfl
  rw [this, FlagSet.has_add, hy]
  rfl

/-- An effect on every outlet in turn grows the state when each outlet's does. -/
theorem Grows.eachDraft (s : State) (f : State → OutletId → State × List Draft) (h : ∀ u o, Grows u (f u o).1) :
    Grows s (s.eachDraft f).1 := by
  have key : ∀ (os : List OutletId) (p : State × List Draft), Grows s p.1 →
      Grows s (os.foldl (fun p o => ((f p.1 o).1, p.2 ++ (f p.1 o).2)) p).1 := by
    intro os
    induction os with
    | nil => exact fun _ h => h
    | cons o os ih => exact fun p hp => ih _ (hp.trans (h _ _))
  exact key _ _ (.refl s)

theorem Grows.foldl {α : Type} (f : State → α → State) (h : ∀ u a, Grows u (f u a)) (xs : List α) (s : State) :
    Grows s (xs.foldl f s) := by
  induction xs generalizing s with
  | nil => exact .refl s
  | cons x xs ih => exact (h s x).trans (ih _)

theorem Grows.setBreach (s : State) (o : OutletId) (f : VerdictUnit → VerdictUnit) : Grows s (s.setBreach o f) := by
  unfold State.setBreach
  simp only
  split
  · exact (Grows.modOutlet s o _).trans (.raiseBoth _ _)
  · exact Grows.modOutlet s o _

theorem Grows.modIntake (s : State) (o : OutletId) (f : Intake → Intake) : Grows s (s.modIntake o f) := .modOutlet s o _

theorem Grows.modSched (s : State) (o : OutletId) (f : Sched → Sched) : Grows s (s.modSched o f) := .modOutlet s o _

theorem Grows.modSubs (s : State) (o : OutletId) (f : Subs → Subs) : Grows s (s.modSubs o f) := .modOutlet s o _

theorem Grows.openGap (s : State) (o : OutletId) (a : AirTime) (r : Option Rfn) : Grows s (s.openGap o a r) := by
  unfold State.openGap State.reportGap
  exact (Grows.modSubs s o _).trans (.setBreach _ _ _)

theorem Grows.runTimer (s : State) (o : OutletId) (a : AirTime) (r : Option Rfn) : Grows s (s.runTimer o a r) := by
  unfold State.runTimer
  split
  · split
    · exact .openGap _ _ _ _
    · exact .modSubs _ _ _
  · exact .refl s
  · exact .refl s

theorem Grows.passGap (s : State) (o : OutletId) (a : AirTime) (r : Option Rfn) : Grows s (s.passGap o a r) := by
  unfold State.passGap
  split
  · exact .modSubs _ _ _
  · exact .runTimer _ _ _ _

theorem Grows.lostTick (s : State) (o : OutletId) : Grows s (s.lostTick o) :=
  ((Grows.modIntake s o _).trans (.modSched _ _ _)).trans (.passGap _ _ _ _)

theorem Grows.enterLost (s : State) (o : OutletId) : Grows s (s.enterLost o) := .modIntake s o _

theorem Grows.setWaiting (s : State) (o : OutletId) (w : Waiting) : Grows s (s.setWaiting o w) := .modSched s o _

theorem Grows.armHead (s : State) (o : OutletId) (d : Declaration) (b : BoundaryStamp) (c : ArmCause) (late : Bool) :
    Grows s (s.armHead o d b c late) := .modSched s o _

theorem Grows.tickIntake (s : State) (o : OutletId) : Grows s (s.tickIntake o).1 := by
  unfold State.tickIntake
  split
  · exact .refl s
  · exact .refl s
  · exact .lostTick s o
  · dsimp only
    split
    · exact (Grows.modIntake s o _).trans (.enterLost _ o)
    · refine Grows.modIntake s o fun i => { i with lossTimer := i.lossTimer + 1 }

theorem Grows.testTimed (s : State) (o : OutletId) (c : LateCause) : Grows s (s.testTimed o c).1 := by
  unfold State.testTimed
  split
  · exact .refl s
  · split
    · split
      · exact .refl s
      · split
        · exact .setWaiting s o _
        · exact .armHead s o _ _ _ _
    · exact .refl s

theorem Grows.respond (s : State) (l : Link) (tag : Tag) (code : Byte) (st : Status) (b : Body) :
    Grows s (s.respond l tag code st b) :=
  .modLink s l (fun p => p.respond tag code st b) fun _ h => h

theorem Grows.tickDeferred (s : State) (l : Link) : Grows s (tickDeferred l s) := by
  have age : Grows s (ageDeferred l s) := .modLink s l _ fun _ h => h
  refine age.trans ?_
  have cut : Grows (ageDeferred l s) ((ageDeferred l s).modLink l fun p =>
      { p with deferred := p.deferred.filter fun d => !d.timedOut }) := .modLink _ l _ fun _ h => h
  refine (cut.trans (.foldl _ ?_ _ _)).trans (.useFree _ 1)
  exact fun u d => .respond _ _ _ _ _ _

/-- A frame tick moves the Time Base on and grows the rest (R16). -/
theorem State.tick_spec (s : State) : Grows (s.modTime TimeBase.tick) s.tick := by
  unfold State.tick
  simp only
  refine (Grows.eachDraft _ _ Grows.tickIntake).trans ?_
  refine (Grows.eachDraft _ (fun s o => s.testTimed o .lateDeclare) fun u o => .testTimed u o _).trans ?_
  exact ((Grows.tickDeferred _ .automation).trans (.tickDeferred _ .compliance)).trans (.createAnyOrder _ _)

theorem State.tick_time (s : State) : s.tick.time = s.time.tick := s.tick_spec.time

/-- A tick leaves everything but the outlets, the link ports, the evidence and the Time Base as it was. -/
theorem State.tick_frame (s : State) : TickFrame s s.tick := by
  have h := s.tick_spec.frame
  generalize s.tick = t at h
  exact congrArg (fun v : State => { v with time := s.time }) h

theorem State.stepOutlet_spec (s : State) (o : OutletId) : Grows s (s.stepOutlet o).1 :=
  (Grows.modOutlet s o _).trans (.testTimed _ _ _)

/-- A step of air time at the Scheduler grows the state. -/
theorem State.stepScheduler_spec (s : State) : Grows s s.stepScheduler :=
  (Grows.eachDraft _ _ State.stepOutlet_spec).trans (.createAnyOrder _ _)

/-- A step of air time sets it, writes TIME_STEP, raises TIME on both links and grows the rest (R22). -/
theorem State.stepTime_spec (s : State) (c : StepCause) (new : AirTime) (ref : RefState) :
    Grows (s.modTime fun b => { b with air := new }) (s.stepTime c new ref) ∧
      Told s (s.stepTime c new ref)
        { outlet := none, stamp := new, body := .timeStep c s.time.air new ((new.frames : Int) - s.time.air.frames) ref } ∧
      ∀ l : Link, ((s.stepTime c new ref).link l).flags.time = true := by
  unfold State.stepTime
  simp only
  refine ⟨((Grows.create _ _).trans (.raiseBoth _ _)).trans (State.stepScheduler_spec _), ?_, ?_⟩
  · exact (Told.grows ⟨[_], rfl, List.mem_singleton.mpr rfl⟩ (.raiseBoth _ _)).grows (State.stepScheduler_spec _)
  intro l
  refine (State.stepScheduler_spec _).flags l .time ?_
  cases l <;> rfl

end Sys2Proof.Machine
end

