-- ==== Sys2Proof/WellFormed.lean ====
section
/-! DEFINITION. Which commands are well formed: the bounds that the operands' types do not carry already. -/

namespace Sys2Proof

/-- A loudness code lies on −120.00 to +12.00 in hundredths (00_scope.md, Conventions). -/
def loudnessCodeInRange (l : Int) : Bool := decide (-12000 ≤ l) && decide (l ≤ 1200)

/-- Well-formed commands: an excursion's loudness is a loudness code, and a run of undelimited bytes is not empty (R1, R161). -/
def wellFormed : Instr → Bool
  | .excursion _ l _ => loudnessCodeInRange l
  | .airBytesUndelimited _ bytes => !bytes.isEmpty
  | .linkBytesUndelimited _ bytes => !bytes.isEmpty
  | .airFrameArrival _ _ => true
  | .gapOpen _ => true
  | .recordTake _ => true
  | .framePulse _ => true
  | .secondPulse _ => true
  | .missingPulse => true
  | .localOscillatorExpiry => true
  | .returnLost _ => true
  | .cueEdge _ _ => true
  | .messageReceived _ _ => true
  | .responseSent _ => true
  | .segDeclare _ => true
  | .segWithdraw _ => true
  | .segTake _ => true
  | .segEnd _ => true
  | .segList _ => true
  | .timeSet _ => true
  | .cueRead _ => true
  | .profileStage _ => true
  | .profileRead _ => true
  | .pageList _ => true
  | .pageRead _ => true
  | .pageRelease _ => true
  | .holdPlace _ => true
  | .holdRelease _ => true
  | .holdList _ => true
  | .evidRead _ => true
  | .evidAck _ => true
  | .settingsSave _ => true
  | .restart _ => true
  | .status _ => true
  | .meterRead _ => true
  | .flagsRead _ => true
  | .flagsClear _ => true
  | .maskSet _ => true
  | .linkReset _ => true
  | .linkResetLineRise _ => true
  | .linkResetLineFall _ => true
  | .arbiterGrant => true
  | .recordWriteComplete => true
  | .deferredReadTimeout _ => true
  | .evidenceBurstComplete => true
  | .pageReadFetchComplete => true
  | .evidReadFetchComplete => true
  | .powerOn _ => true
  | .settingsLoadComplete => true
  | .settingsSaveComplete => true
  | .powerLoss => true
  | .unknownRequestCode _ => true
  | .recordBurstComplete => true

end Sys2Proof
end

