-- ==== Sys2Proof/Tests/Slice0.lean ====
section
/-! SUPPORT. Tests: what the well-formedness check refuses, worked values of the spec on single commands, and for every statement a
state and operands that meet its hypotheses. -/

open Sys2Proof Sys2Proof.Machine

namespace Sys2Proof.Tests

set_option Elab.async false

/-! ### Small states -/

/-- The state a command leaves. -/
def after (c : Instr) (s : State) : State :=
  match exec c s with
  | .next t => t
  | .fault _ => s
  | .refused _ => s

/-- An enabled outlet with a ring of eight pages. -/
def ring (first : Nat) (policy : Policy) (delay : Nat) : OutletSettings :=
  { enabled := true, ringFirst := first, ringCount := 8, policy := policy, returnDelay := delay, subtitleService := 3 }

/-- A valid image with outlets 0 and 1 enabled: pages 16 to 31 behind an evidence region of pages 0 to 15. -/
def image : Image :=
  { defaultImage with outlets := (defaultImage.outlets.set 0 (ring 16 .overwrite 5)).set 1 (ring 24 .stop 0) }

/-- An outlet's return switched on. -/
def waiting (t : Outlet) : Outlet := { t with intake := { t.intake with state := .waiting } }

/-- The block in service, UNSET, every enabled outlet WAITING. -/
def live : State :=
  (({ State.reset with
      loading := false, settings := image, imageCopy := image
      profiles := { slot0 := some { version := 1, profile := builtInProfile }, slot1 := none, latestIsOne := false } }).modOutlet 0
    waiting).modOutlet 1 waiting

/-- An air time in the first minutes. -/
def time (seconds : Nat) (frame : Fin 25) : AirTime := { seconds := BitVec.ofNat 32 seconds, frame := frame }

/-- A declaration. -/
def decl (id : Nat) (start : Option StartMode) : Declaration :=
  { id := BitVec.ofNat 32 id, kind := .programme, cls := 0, obligation := .required, language := none, start := start,
    duration := 10 }

/-- A current segment at its `n`-th frame. -/
def current (d : Declaration) (n : Nat) : Current :=
  { decl := d, startStamp := time 0 0, startRfn := 0, frameCount := n, version := 1, lateStart := false, holdoverSeen := true,
    timeStepSeen := false, overrun := false, absentFrames := 0, lostTicks := 0, overrunReported := false, lastStamp := time 0 9,
    lastRfn := 9 }

/-- The block in service with a segment on outlet 0. -/
def onAir : State :=
  live.modOutlet 0 fun t =>
    { t with
      intake := { t.intake with state := .active, rfn := 10, expected := some 10, lossTimer := 2, lastArrival := some (time 0 9, 9) }
      sched := { t.sched with current := some (current (decl 1 none) 10) } }

/-- A request with a tag of 7. -/
def req (code : Byte) (body : Bytes) : Request := { tag := 7, code := code, body := body }

/-- The state with one request waiting on a link. -/
def put (s : State) (l : Link) (code : Byte) (body : Bytes) : State :=
  s.modLink l fun p => { p with outstanding := [7], requests := [req code body] }

/-! ### Well-formedness and the table's words -/

theorem test_excursion_above_range_refused : wellFormed (.excursion 0 1201 (time 0 0)) = false := by decide

theorem test_excursion_below_range_refused : wellFormed (.excursion 0 (-12001) (time 0 0)) = false := by decide

theorem test_excursion_bounds_accepted :
    wellFormed (.excursion 0 1200 (time 0 0)) = true ∧ wellFormed (.excursion 0 (-12000) (time 0 0)) = true := by decide

theorem test_empty_air_run_refused : wellFormed (.airBytesUndelimited 0 []) = false := by decide

theorem test_empty_link_run_refused : wellFormed (.linkBytesUndelimited .automation []) = false := by decide

/-- No row of the table gives bits, so no word spells a command. -/
theorem test_no_word_spells_a_command : decodeTableWord 8 0 = none ∧ decodeTableWord 16 65535 = none := by decide

theorem test_no_word_changes_the_queue : State.reset.withFetchWord 16 3 = State.reset := by decide +kernel

/-- The nine digits 1 to 9, over which the published check values of CRCs with R183's parameters are taken. -/
def nineDigits : Bytes := [0x31, 0x32, 0x33, 0x34, 0x35, 0x36, 0x37, 0x38, 0x39]

theorem test_crc32_check : crc32 nineDigits = 0xCBF43926#32 := by decide +kernel

theorem test_crc16_check : crc16 nineDigits = 0x29B1#16 := by decide +kernel

theorem test_image_valid : image.refusal = none := by decide +kernel

theorem test_default_image_valid : defaultImage.refusal = none := by decide +kernel

/-! ### Worked values of the spec -/

/-- The momentary over four full sub-blocks, and over three and a short one (chapter 4, 4.13): −22.91, −23.42, −22.60. -/
theorem test_momentary_worked :
    loudnessCode (mkRat 60 10000) 0 = -2291 ∧ loudnessCode (mkRat 9216 1728000) 0 = -2342 ∧
      loudnessCode (mkRat 11136 1728000) 0 = -2260 := by
  decide +kernel

/-- The gating example of chapter 4 (4.13): 30 blocks in bin 479, 10 in bin 299 and 5 under range give −22.05 above −33.28. -/
def gated : LoudRecord :=
  { emptyLoudRecord with bins := (emptyLoudRecord.bins.set 479 30).set 299 10, underRange := 5, gatingCount := 45 }

theorem test_reduction_worked : gated.reduce 0 = .value (-2205) (-3328) := by decide +kernel

theorem test_reduction_silent_and_not_evaluated :
    { emptyLoudRecord with underRange := 45, gatingCount := 45 }.reduce 0 = .silent ∧ emptyLoudRecord.reduce 0 = .notEvaluated := by
  decide +kernel

/-! ### Witnesses: the machine -/

theorem of_none {α : Type} {P : α → Prop} {x : Option α} (h : x = none) : ∀ a : α, x = some a → P a := by
  intro a e
  rw [h] at e
  cases e

theorem of_some {α : Type} {P : α → Prop} {x : Option α} {a : α} (h : x = some a) (k : P a) : ∀ b : α, x = some b → P b := by
  intro b e
  rw [h] at e
  cases e
  exact k

/-- A frame record of 16 zero bytes; its length is all that counts here. -/
def someRecord (n : Nat) : FrameRecord := { bytes := List.replicate n 0, stamp := time 0 9, rfn := 9, flags := 0 }

/-- Outlet 0's writer with a record of `n` bytes placed at offset 0 of a page. -/
def placedIn (s : State) (page n : Nat) : State :=
  s.modWriter 0 fun w =>
    { w with mode := .writing, fifo := [.record (someRecord n)], placed := some { page := page, offset := 0, written := 0 } }

/-- The state with one command waiting. -/
def queued (c : Instr) (s : State) : State := { s with pending := [c] }

theorem witness_StepTakesFrontCommand : (queued .missingPulse live).pending = [.missingPulse] ∧ live.pending = [] := ⟨rfl, rfl⟩

/-- Is an outcome a fault? -/
def stops : Host.Outcome State Fault Refusal → Bool
  | .fault _ => true
  | .next _ => false
  | .refused _ => false

theorem fault_of_stops {x : Host.Outcome State Fault Refusal} (h : stops x = true) : ∃ f, x = .fault f := by
  cases x with
  | fault f => exact ⟨f, rfl⟩
  | next _ => cases h
  | refused _ => cases h

/-- Page 8192 is the first beyond 1 GiB. -/
theorem witness_StepFaultsOnlyPastMemory : ∃ f, step (queued .arbiterGrant (placedIn live 8192 16)) = .fault f :=
  fault_of_stops (by decide +kernel)

theorem witness_AttentionKept :
    AttentionRight (live.raiseBoth .settings).refresh ∧
      ∃ t, step (queued .missingPulse (live.raiseBoth .settings).refresh) = .next t :=
  ⟨State.refresh_attention _, _, rfl⟩

theorem witness_StoresKept :
    StoresCanonical { live with memory := [(0, 1), (7, 255)], directory := [(16, { emptyPage with state := .released })] } ∧
      ∃ t, step (queued .missingPulse live) = .next t :=
  ⟨by decide +kernel, _, rfl⟩

/-- The bounds at their limits: 8 tags outstanding, 4 deferred reads and 16 declarations. -/
def full : State :=
  (live.modLink .compliance fun p =>
      { p with outstanding := [1, 2, 3, 4, 5, 6, 7, 8]
               deferred := List.replicate 4 { tag := 1, outlet := 0, sequence := 1, offset := 0, length := 1, age := 49 } }).modSched 0
    fun q => { q with queue := (List.range 16).map fun i => decl (i + 2) none }

theorem witness_BoundsKept : WithinBounds full ∧ ∃ t, step (queued .localOscillatorExpiry full) = .next t := by
  refine ⟨⟨?_, by decide +kernel, by decide +kernel, by decide +kernel⟩, _, rfl⟩
  intro l
  cases l <;> decide +kernel

theorem brk_none_onAir : ∀ o : OutletId, (onAir.outlet o).sched.brk = none := by decide +kernel

theorem witness_OutletLawsKept : OutletLaws onAir ∧ ∃ t, step (queued (.returnLost 0) onAir) = .next t := by
  refine ⟨⟨by decide +kernel, fun o b h => ?_, fun h => ?_, fun h => ?_⟩, _, rfl⟩
  · rw [brk_none_onAir o] at h
    cases h
  · exact absurd h (by decide)
  · exact absurd h (by decide)

/-- Outlet 0 after ten frames of silence: four full sub-blocks and one gating block, under range. -/
def measured : State :=
  onAir.modOutlet 0 fun t =>
    { t with
      loud := { t.loud with seg := some { full := 4, window := [0, 0, 0, 0],
                                          record := { emptyLoudRecord with underRange := 1, gatingCount := 1 } } }
      subs := { t.subs with record := some { framesSeen := 10, covered := 10, wrongLanguage := 0, gapCount := 0, longestGap := 0 } } }

theorem outletLaws_measured : OutletLaws measured := by
  have brk : ∀ o : OutletId, (measured.outlet o).sched.brk = none := by decide +kernel
  refine ⟨by decide +kernel, fun o b h => ?_, fun h => absurd h (by decide), fun h => absurd h (by decide)⟩
  rw [brk o] at h
  cases h

theorem witness_MeasurementKept :
    OutletLaws measured ∧ MeasurementLaws measured ∧ ∃ t, step (queued (.returnLost 0) measured) = .next t := by
  have others : ∀ o : OutletId, o ≠ 0 → measured.current o = none := by decide +kernel
  have quiet : ∀ o : OutletId, measured.current o = none →
      (measured.outlet o).loud.gathered = 0 ∧ (measured.outlet o).subs.timer = .stopped ∧ (measured.outlet o).subs.gap = none ∧
        (measured.outlet o).subs.record = none := by
    decide +kernel
  have bounds : ∀ o : OutletId, (measured.outlet o).loud.history.length ≤ 30 ∧ (measured.outlet o).loud.gathered < 4800 ∧
      ((measured.outlet o).subs.gap.isSome = true → (measured.outlet o).subs.timer = .expired) := by
    decide +kernel
  refine ⟨outletLaws_measured, fun o => ⟨(bounds o).1, (bounds o).2.1, (bounds o).2.2, quiet o, fun c h => ?_⟩, _, rfl⟩
  by_cases ho : o = 0
  · subst ho
    have : measured.current 0 = some (current (decl 1 none) 10) := by decide +kernel
    rw [this] at h
    cases h
    exact ⟨_, _, rfl, rfl, by decide +kernel⟩
  · rw [others o ho] at h
    cases h

theorem witness_SegmentIdsKept : SegmentIdsUnique full ∧ ∃ t, step (queued .missingPulse full) = .next t :=
  ⟨by unfold SegmentIdsUnique; decide +kernel, _, rfl⟩

/-- A record in the last bytes of a page of outlet 0's ring, its only burst in progress. -/
def writing : State := { placedIn live 23 16 with port := some (.record 0 16 true) }

theorem witness_RecordWritesStayInMemory : WritesInMemory writing := by
  have brk : ∀ o : OutletId, (writing.outlet o).sched.brk = none := by decide +kernel
  have others : ∀ o : OutletId, o ≠ 0 → (writing.outlet o).writer.fifo = [] ∧ (writing.outlet o).writer.placed = none := by
    decide +kernel
  have len : (someRecord 16).bytes.length = 16 := by decide
  refine ⟨⟨by decide +kernel, fun o b h => ?_, fun h => absurd h (by decide), fun h => absurd h (by decide)⟩,
    ⟨by decide +kernel, by decide +kernel, of_none rfl⟩, fun o r h => ?_, fun o p h => ?_, fun o n last h => ?_,
    fun n h => ?_, fun h => absurd h (by decide)⟩
  · rw [brk o] at h
    cases h
  · by_cases ho : o = 0
    · subst ho
      have : (writing.outlet 0).writer.fifo = [.record (someRecord 16)] := by decide +kernel
      rw [this, List.mem_singleton] at h
      cases h
      decide
    · rw [(others o ho).1] at h
      cases h
  · by_cases ho : o = 0
    · subst ho
      have : (writing.outlet 0).writer.placed = some { page := 23, offset := 0, written := 0 } := by decide +kernel
      rw [this] at h
      cases h
      exact ⟨someRecord 16, [], by decide +kernel, by decide +kernel, by decide, by decide⟩
    · rw [(others o ho).2] at h
      cases h
  · have : (writing.port) = some (.record 0 16 true) := rfl
    rw [this] at h
    cases h
    exact ⟨{ page := 23, offset := 0, written := 0 }, someRecord 16, by decide +kernel, by decide⟩
  · have : (writing.port) = some (.record 0 16 true) := rfl
    rw [this] at h
    cases h

/-! ### Witnesses: chapters 1 and 2 -/

/-- Outlet 0's return state changed. -/
def intake (s : State) (f : Intake → Intake) : State := s.modIntake 0 f

/-- Outlet 0 LOST on its segment. -/
def lost : State := intake onAir fun i => { i with state := .lost, expected := none, lostTicks := 4 }

/-- Outlet 0's segment with a next one armed at a boundary. -/
def armedAt (s : State) (b : BoundaryStamp) : State :=
  s.modSched 0 fun q =>
    { q with armed := some { decl := decl 2 none, boundary := b, cause := .take, armStamp := time 0 0, lateStart := false } }

theorem witness_ArrivalNumbered :
    (live.outlet 7).intake.state = .off ∧ lost.powered = true ∧ (lost.outlet 0).intake.state ≠ .off ∧ (lost.outlet 0).intake.state = .lost ∧
      lost.evidence.fifo.length < 64 := by
  decide +kernel

theorem witness_PortsIndependent : ∃ t, exec (.airFrameArrival 0 []) onAir = .next t := ⟨_, rfl⟩

/-- The frame that makes the count duration plus grace: 260 of 10 and 250. The armed boundary lies one frame ahead. -/
def nearOverrun : State := onAir.modSched 0 fun q => { q with current := some (current (decl 1 none) 259) }

/-- One frame before the expected duration of 10, with a FOLLOW head. -/
def following : State :=
  onAir.modSched 0 fun q => { q with current := some (current (decl 1 none) 9), queue := [decl 5 (some .follow)] }

theorem witness_ArrivalCountsFrame :
    nearOverrun.powered = true ∧ (nearOverrun.outlet 0).intake.state = .active ∧
      nearOverrun.current 0 = some (current (decl 1 none) 259) ∧ (nearOverrun.outlet 0).sched.armed = none ∧
      (BoundaryStamp.stamp (time 0 1)).met (armedAt onAir (.stamp (time 0 1))).time.air = false ∧
      (following.outlet 0).sched.queue = [decl 5 (some .follow)] ∧ (following.outlet 0).sched.armed = none ∧
      (following.outlet 0).intake.state = .active ∧ following.current 0 = some (current (decl 1 none) 9) ∧
      ((armedAt following (.stamp (time 0 1))).outlet 0).sched.armed.isSome = true ∧
      ((armedAt following (.stamp (time 0 1))).outlet 0).sched.queue = [decl 5 (some .follow)] := by
  decide +kernel

theorem witness_BoundaryAndFirstFrame :
    (let s := armedAt onAir (.stamp (time 0 0))
     s.powered = true ∧ (s.outlet 0).intake.state = .active ∧ s.current 0 = some (current (decl 1 none) 10) ∧
      ∃ m, (s.outlet 0).sched.armed = some m ∧ m.boundary.met s.time.air = true) ∧
    (let s := armedAt live (.stamp (time 0 0))
     s.powered = true ∧ (s.outlet 0).intake.state = .waiting ∧ (s.outlet 0).sched.queue = [] ∧
      (s.outlet 0).verdict.segSlot = none ∧ ∃ m, (s.outlet 0).sched.armed = some m ∧ m.boundary.met s.time.air = true) ∧
    (live.outlet 0).intake.state = .waiting ∧ (live.outlet 0).sched.armed = none :=
  ⟨⟨by decide +kernel, by decide +kernel, by decide +kernel, _, rfl, by decide +kernel⟩,
    ⟨by decide +kernel, by decide +kernel, by decide +kernel, by decide +kernel, _, rfl, by decide +kernel⟩, by decide +kernel⟩

/-- A frame of outlet 5 with no audio and no units, and `n` bytes of proxy (R2, R184). -/
def frameBytes (n : Nat) : Bytes :=
  let front := [5, 0, 1, 0, 0, 0, 0] ++ le 2 n ++ List.replicate n 1
  front ++ le 4 (crc32 front).toNat

/-- The frame those bytes spell. -/
def spelled (n : Nat) : AirFrame :=
  { outlet := 5, sequence := 256, layout := .none, sampleCount := 0, samples := [], units := [], proxy := List.replicate n 1 }

theorem read_frameBytes (n : Nat) (h : n < 65536) : readFrame (frameBytes n) = some (spelled n) := by
  have fields (xs : Bytes) : takeFrame (5 :: 0 :: 1 :: 0 :: 0 :: 0 :: 0 :: xs) =
      (takeNat 2 xs).bind fun p => (takeBytes p.1 p.2).map fun q => ({ spelled 0 with proxy := q.1 }, q.2) := by
    simp [takeFrame, takeByte, takeNat, takeRange, takeBytes, takeMany, unLe, layoutOf, spelled]
    by_cases h : 2 ≤ xs.length <;> simp [h]
    split <;> rfl
  have proxy : takeBytes n (List.replicate n (1 : Byte)) = some (List.replicate n 1, []) := by simp [takeBytes]
  unfold frameBytes
  rw [readFrame_sealed]
  simp only [List.cons_append, List.nil_append, fields, takeNat_le (n := 2) (v := n) h, Option.bind_some, proxy, Option.map_some]
  rfl

theorem witness_FrameTreated :
    readFrame [] = none ∧ (∃ f, readFrame (frameBytes 16384) = some f ∧ f.outlet ≠ outletByte 0 ∧ f.proxy.length ≤ 16384) ∧
      ∃ f, readFrame (frameBytes 16385) = some f ∧ 16384 < f.proxy.length :=
  ⟨by decide +kernel, ⟨_, read_frameBytes 16384 (by decide), by decide, (List.length_replicate ..).le⟩, _, read_frameBytes 16385 (by decide),
    by unfold spelled; rw [List.length_replicate]; decide⟩

theorem witness_ReturnLostAtThree :
    onAir.powered = true ∧ (onAir.outlet 0).intake.state = .active ∧ (onAir.outlet 0).intake.lossTimer = 2 ∧
      ((intake onAir fun i => { i with lossTimer := 3 }).outlet 0).intake.lossTimer = 3 ∧
      ((intake onAir fun i => { i with lossTimer := 1 }).outlet 0).intake.lossTimer = 1 := by
  decide +kernel

/-- The Time Base changed. -/
def timed (f : TimeBase → TimeBase) : State := live.modTime f

/-- LOCKED, with an accepted frame pulse at instant 0. -/
def locked : State :=
  timed fun b =>
    { b with ref := .locked, qualification := 25, previous := some 0, oscillator := none, pulseTick := some (time 0 0)
             lastPulse := some { time := 0, accepted := true, marked := true, ticked := true } }

/-- A pulse exactly 60 ms after the previous one, at most; the borders of the spacings are 38 ms and 42 ms. -/
theorem witness_QualificationCount :
    locked.powered = true ∧ locked.time.previous = some 0 ∧ locked.time.ref = .locked ∧
      ∀ p : Instant, locked.time.previous = some p → 60000000 ≤ p + 60000000 :=
  ⟨rfl, rfl, rfl, of_some rfl (by decide)⟩

/-- A set pending from the compliance link, and a second pulse that no frame pulse has used. -/
def withSet (s : State) : State :=
  s.modTime fun b => { b with pendingSet := some { seconds := 77, link := .compliance, tag := 5 } }

def secondAt (t : Instant) (s : State) : State := s.modTime fun b => { b with lastSecond := some t }

/-- HOLDOVER with the count at `n`, and an unmarked accepted pulse at instant 0. -/
def holding (n : Nat) : State :=
  timed fun b =>
    { b with air := time 9 12, ref := .holdover, qualification := n, previous := some 0, oscillator := some 20000000
             lastPulse := some { time := 0, accepted := true, marked := false, ticked := false } }

/-- HOLDOVER with the count at 25. -/
def holdover : State := holding 25

/-- LOCKED with a set pending, and an unmarked accepted pulse at instant 0 that was taken as a tick or was not. -/
def awaitingMark (ticked : Bool) : State :=
  (withSet locked).modTime fun b => { b with lastPulse := some { time := 0, accepted := true, marked := false, ticked := ticked } }

/-- Pulses exactly 38 ms and 42 ms after the previous one, the latter bringing the count to 25 or only to 24, each with and without a
set pending; marks exactly 2 ms before them, and one a nanosecond too early. -/
theorem witness_FramePulseEffects :
    (locked.powered = true ∧ locked.time.ref = .locked ∧ locked.time.pendingSet = none ∧
      (∀ p : Instant, locked.time.previous = some p → 38000000 ≤ 38000000 - p ∧ 38000000 ≤ p + 60000000) ∧
      live.time.ref = .unset ∧ (∀ p : Instant, live.time.previous = some p → 38000000 ≤ 0 - p) ∧ 37999999 - 0 < 38000000) ∧
    (let s := secondAt 36000000 (withSet locked)
     s.powered = true ∧ s.time.ref = .locked ∧ s.time.lastSecond = some 36000000 ∧ (38000000 : Nat) ≤ 36000000 + 2000000 ∧
      s.time.pendingSet = some { seconds := 77, link := .compliance, tag := 5 }) ∧
    ((secondAt 35999999 (withSet locked)).time.lastSecond = some 35999999 ∧ ¬(38000000 : Nat) ≤ 35999999 + 2000000) ∧
    (∀ s ∈ [secondAt 40000000 (holding 24), secondAt 40000000 (withSet (holding 24))],
      s.powered = true ∧ s.time.ref = .holdover ∧ s.time.previous = some 0 ∧ s.time.lastSecond = some 40000000 ∧
        (if 42000000 - 0 ≤ 42000000 then min 25 (s.time.qualification + 1) else 1) = 25) ∧
    (let s := secondAt 40000000 (holding 23)
     s.time.ref = .holdover ∧ (if 42000000 - 0 ≤ 42000000 then min 25 (s.time.qualification + 1) else 1) ≠ 25) ∧
    holdover.time.lastSecond = none :=
  ⟨⟨rfl, rfl, rfl, of_some rfl (by decide), rfl, of_none rfl, by decide⟩, by decide +kernel, by decide +kernel, by decide +kernel,
    by decide +kernel, rfl⟩

/-- Marks 2 ms after a pulse: in HOLDOVER with the count at 25, with and without a set pending, and at 24; in LOCKED with a set pending;
and after a pulse that was discarded. A second pulse one nanosecond later. -/
theorem witness_LockAtMark :
    (∀ s ∈ [holdover, withSet holdover, holding 24],
      s.powered = true ∧ s.time.ref = .holdover ∧
        s.time.lastPulse = some { time := 0, accepted := true, marked := false, ticked := false } ∧ (2000000 : Nat) ≤ 0 + 2000000) ∧
    holdover.time.qualification = 25 ∧ (withSet holdover).time.qualification = 25 ∧ (holding 24).time.qualification ≠ 25 ∧
    (∀ ticked : Bool, (awaitingMark ticked).powered = true ∧ (awaitingMark ticked).time.ref = .locked ∧
      (awaitingMark ticked).time.pendingSet = some { seconds := 77, link := .compliance, tag := 5 } ∧
      (awaitingMark ticked).time.lastPulse = some { time := 0, accepted := true, marked := false, ticked := ticked }) ∧
    (timed fun b => { b with lastPulse := some { time := 0, accepted := false, marked := false, ticked := false } }).time.lastPulse =
      some { time := 0, accepted := false, marked := false, ticked := false } ∧
    ∀ p : PulseRecord, holdover.time.lastPulse = some p → p.time + 2000000 < 2000001 :=
  ⟨by decide +kernel, by decide +kernel, by decide +kernel, by decide +kernel, by decide +kernel, rfl, of_some rfl (by decide)⟩

theorem witness_MissingPulseEffects :
    locked.powered = true ∧ locked.time.previous = some 0 ∧ locked.time.ref = .locked ∧
      locked.time.pulseTick = some (time 0 0) ∧ locked.evidence.fifo.length < 64 ∧ holdover.time.previous = some 0 ∧
      holdover.time.ref ≠ .locked := by
  decide +kernel

/-- A set waiting for the second that the next tick begins. -/
def setPending : State := withSet (timed fun b => { b with air := time 3 24 })

/-- A tick with everything to do: outlet 0 at its third tick without a frame, outlet 1 LOST with its gap timer at 1, TIMED heads due on
outlet 0 and before an occupied slot on outlet 1, and deferred reads of ages 48 and 49. -/
def ticking : State :=
  let head (start : AirTime) : Declaration :=
    { id := 3, kind := .programme, cls := 0, obligation := .required, language := none, start := some (.timed start), duration := 10 }
  ((onAir.modOutlet 0 fun t => { t with sched := { t.sched with queue := [head (time 0 0)] } }).modOutlet 1 fun t =>
    { t with
      intake := { t.intake with state := .lost }
      sched := { t.sched with
        current := some (current (decl 1 none) 10)
        armed := some { decl := decl 2 none, boundary := .nextFrame, cause := .take, armStamp := time 0 0, lateStart := false }
        queue := [head (time 0 1)] }
      subs := { t.subs with timer := .running 1, record := some emptySubRecord } }).modLink .compliance fun p =>
    { p with
      outstanding := [1, 2]
      deferred := [{ tag := 1, outlet := 0, sequence := 2, offset := 64, length := 1, age := 48 },
                   { tag := 2, outlet := 0, sequence := 2, offset := 64, length := 1, age := 49 }] }

/-- What Intake and the Scheduler make of that tick, and the two records it brings, RETURN_LOST and LATE_START (R12, R13, R40, R85). -/
theorem test_tick_reported :
    ticking.powered = true ∧ ticking.time.oscillator = some 40000000 ∧ ticking.time.pendingSet = none ∧
      (tickDrafts ticking).length = 2 ∧
      let u := (((ticking.modTime TimeBase.tick).eachDraft State.tickIntake).1.eachDraft fun s o => s.testTimed o .lateDeclare).1
      (u.outlet 0).intake.state = .lost ∧ ((u.outlet 0).sched.armed.map fun m => m.lateStart) = some true ∧
        ((u.current 1).map fun c => c.lostTicks) = some 1 ∧ (u.outlet 1).sched.waiting = some .timed ∧
        (u.outlet 1).subs.gap = some { start := time 0 1, rfn := none, length := 1 } ∧
        (u.link .automation).flags.breach = true := by
  decide +kernel

theorem witness_OscillatorTick :
    live.powered = true ∧ live.time.oscillator = some 40000000 ∧ live.time.pendingSet = none ∧
      setPending.time.oscillator = some 40000000 ∧
      setPending.time.pendingSet = some { seconds := 77, link := .compliance, tag := 5 } ∧ setPending.time.air.frame.val = 24 ∧
      (withSet live).time.air.frame.val ≠ 24 ∧ (withSet live).time.pendingSet.isSome = true := by
  decide +kernel

theorem witness_TimeSetTaken :
    Serving (put live .automation 6 [1, 0, 0, 0]) .automation 6 (req 6 [1, 0, 0, 0]) ∧
      Link.automation ≠ live.settings.timeAuthority ∧
      Serving (put live .compliance 6 [1, 0, 0, 0]) .compliance 6 (req 6 [1, 0, 0, 0]) ∧
      Link.compliance = live.settings.timeAuthority ∧ live.time.pendingSet = none ∧
      Serving (put setPending .compliance 6 [1, 0, 0, 0]) .compliance 6 (req 6 [1, 0, 0, 0]) ∧
      setPending.time.pendingSet.isSome = true ∧ Serving (put live .compliance 6 [1]) .compliance 6 (req 6 [1]) := by
  decide +kernel

/-- Outlet 0's head waits on cue line 15. -/
def cued : State := onAir.modSched 0 fun q => { q with queue := [decl 3 (some (.cued 15))] }

/-- An edge accepted at instant 0 on line 15. -/
def edged : State := cued.setCue 15 { restCue with acceptedAt := some 0 }

theorem witness_CueEdgeTaken :
    (cued.powered = true ∧ cued.loading = false ∧ cued.head 0 = some (decl 3 (some (.cued 15))) ∧
      (cued.outlet 0).sched.armed = none) ∧
    State.reset.loading = true ∧ (edged.cue 15).acceptedAt = some 0 ∧ (79999999 : Nat) < 0 + 80000000 ∧
    ∀ u : Instant, (edged.cue 15).acceptedAt = some u → u + 80000000 ≤ 80000000 :=
  ⟨by decide +kernel, rfl, by decide +kernel, by decide, of_some (a := 0) (by decide +kernel) (by decide)⟩

theorem witness_CueReadAnswered :
    Serving (put live .automation 7 [0, 0x80]) .automation 7 (req 7 [0, 0x80]) ∧ unLe [0, 0x80] ≠ 0 ∧
      Serving (put live .automation 7 [0, 0]) .automation 7 (req 7 [0, 0]) ∧ unLe [0, 0] = 0 := by
  decide +kernel

/-! ### Witnesses: chapters 3 to 6 -/

/-- A SEG-DECLARE body for outlet 0 (R31, R188). -/
def declBody (id : Nat) (start : Bytes) : Bytes := [0] ++ le 4 id ++ [1, 0, 0, 0, 0, 0] ++ start ++ le 4 10

/-- A TIMED start at 0:0, and its declaration. -/
def timedBody (id : Nat) : Bytes := declBody id ([0] ++ airBytes (time 0 0))

def timedDecl (id : Nat) : Declaration := decl id (some (.timed (time 0 0)))

/-- Outlet 0's queue. -/
def queue (s : State) (ds : List Declaration) : State := s.modSched 0 fun q => { q with queue := ds }

theorem witness_SegDeclareTaken :
    readSegDeclare [] = none ∧ Serving (put live .automation 1 []) .automation 1 (req 1 []) ∧
      readSegDeclare (timedBody 5) = some (0, timedDecl 5) ∧
      (let s := put (queue live [timedDecl 5]) .automation 1 (timedBody 5)
       Serving s .automation 1 (req 1 (timedBody 5)) ∧ (timedDecl 5).id ∈ (s.outlet 0).sched.ids) ∧
      (let s := put full .automation 1 (timedBody 99)
       Serving s .automation 1 (req 1 (timedBody 99)) ∧ (timedDecl 99).id ∉ (s.outlet 0).sched.ids ∧
        16 ≤ (s.outlet 0).sched.queue.length) ∧
      (let s := put (queue live [timedDecl 4]) .automation 1 (timedBody 5)
       Serving s .automation 1 (req 1 (timedBody 5)) ∧ (timedDecl 5).id ∉ (s.outlet 0).sched.ids ∧
        (s.outlet 0).sched.queue ≠ []) ∧
      (let s := put live .automation 1 (timedBody 5)
       Serving s .automation 1 (req 1 (timedBody 5)) ∧ (s.outlet 0).sched.queue = [] ∧ (s.outlet 0).sched.armed = none ∧
        (time 0 0).frames ≤ s.time.air.frames) ∧
      (let s := put onAir .automation 1 (declBody 5 [3])
       Serving s .automation 1 (req 1 (declBody 5 [3])) ∧ readSegDeclare (declBody 5 [3]) = some (0, decl 5 (some .follow)) ∧
        (s.outlet 0).sched.queue = [] ∧ (s.outlet 0).sched.armed = none ∧ s.followDue 0 = true) := by
  decide +kernel

/-- A SEG-WITHDRAW body for outlet 0. -/
def withdraw (id : Nat) : Bytes := [0] ++ le 4 id

/-- Withdrawals of the second of two, of the only one, of the head, of the current segment and of an unknown one. -/
theorem witness_SegWithdrawTaken :
    readSegWithdraw [0] = none ∧ Serving (put live .automation 2 [0]) .automation 2 (req 2 [0]) ∧
      (∀ id : Nat, id = 1 ∨ id = 4 ∨ id = 5 ∨ id = 6 → readSegWithdraw (withdraw id) = some (0, BitVec.ofNat 32 id)) ∧
      (let s := put (queue onAir [timedDecl 4, timedDecl 5]) .automation 2 (withdraw 5)
       Serving s .automation 2 (req 2 (withdraw 5)) ∧ (s.outlet 0).sched.queue = [timedDecl 4] ++ timedDecl 5 :: [] ∧
        (timedDecl 5).id = 5 ∧ ∀ e ∈ [timedDecl 4], e.id ≠ 5) ∧
      (let s := put (queue onAir [timedDecl 5]) .automation 2 (withdraw 5)
       Serving s .automation 2 (req 2 (withdraw 5)) ∧ (s.outlet 0).sched.queue = [] ++ timedDecl 5 :: []) ∧
      (let s := put (queue onAir [timedDecl 5, timedDecl 4]) .automation 2 (withdraw 5)
       Serving s .automation 2 (req 2 (withdraw 5)) ∧ (s.outlet 0).sched.queue = [] ++ timedDecl 5 :: [timedDecl 4]) ∧
      (let s := put onAir .automation 2 (withdraw 1)
       Serving s .automation 2 (req 2 (withdraw 1)) ∧ (s.outlet 0).sched.queue = [] ∧
        s.current 0 = some (current (decl 1 none) 10) ∧ (decl 1 none).id = 1) ∧
      (let s := put onAir .automation 2 (withdraw 6)
       Serving s .automation 2 (req 2 (withdraw 6)) ∧ (s.outlet 0).sched.armed = none) := by
  refine ⟨by decide +kernel, by decide +kernel, ?_, by decide +kernel⟩
  rintro id (rfl | rfl | rfl | rfl) <;> decide +kernel

theorem witness_SegTakeAndEnd :
    Serving (put live .automation 3 [8]) .automation 3 (req 3 [8]) ∧ 8 ≤ (8 : Byte).toNat ∧
      Serving (put live .automation 4 [8]) .automation 4 (req 4 [8]) ∧
    Serving (put live .automation 3 [0]) .automation 3 (req 3 [0]) ∧ (req 3 [0]).body = [outletByte 0] ∧
      (live.outlet 0).sched.armed = none ∧ (live.outlet 0).sched.queue = [] ∧
      Serving (put (queue live [timedDecl 5]) .automation 3 [0]) .automation 3 (req 3 [0]) ∧
      ((queue live [timedDecl 5]).outlet 0).sched.queue = [timedDecl 5] ∧
      Serving (put (armedAt onAir .nextFrame) .automation 3 [0]) .automation 3 (req 3 [0]) ∧
      ((armedAt onAir .nextFrame).outlet 0).sched.armed.isSome = true ∧
      Serving (put onAir .automation 4 [0]) .automation 4 (req 4 [0]) ∧ (onAir.outlet 0).sched.armed = none ∧
      Serving (put (armedAt onAir .nextFrame) .automation 4 [0]) .automation 4 (req 4 [0]) := by
  decide +kernel

/-- A PAGE-LIST body: outlet 0, 0:0 to 0:24, every state, from sequence 1. -/
def listBody : Bytes := [0] ++ airBytes (time 0 0) ++ airBytes (time 0 24) ++ [7] ++ le 4 1

theorem witness_ReadRequestsAnswer :
    Serving (put live .automation 5 [0]) .automation 5 (req 5 [0]) ∧ (req 5 [0]).body = [outletByte 0] ∧
      Serving (put live .automation 9 []) .automation 9 (req 9 []) ∧
      Serving (put live .compliance 10 listBody) .compliance 10 (req 10 listBody) ∧
      readPageList listBody = some { outlet := 0, first := time 0 0, last := time 0 24, filter := 7, start := 1 } ∧
      Serving (put live .compliance 15 []) .compliance 15 (req 15 []) ∧
      Serving (put live .automation 20 []) .automation 20 (req 20 []) ∧
      Serving (put live .automation 21 [0]) .automation 21 (req 21 [0]) ∧
      Serving (put live .compliance 22 []) .compliance 22 (req 22 []) := by
  decide +kernel

/-- A segment of another kind current on outlet 0, under or outside an open break. -/
def spot (kind : SegKind) (brk : Option BreakRecord) : State :=
  onAir.modOutlet 0 fun t =>
    { t with
      sched := { t.sched with current := some (current { decl 1 none with kind := kind } 1), brk := brk }
      loud := { t.loud with brk := brk.map fun _ => emptyLoudRecord } }

/-- An open break of one member. -/
def openBreak : BreakRecord :=
  { openingId := 1, openStamp := time 0 0, firstRfn := 0, version := 1, cls := 0, members := 1, lastMember := 1, lastStamp := time 0 9,
    lastRfn := 9 }

/-- The next segment armed, of another kind, at a boundary that the air time has reached. -/
def thenArmed (kind : SegKind) (s : State) : State :=
  s.modSched 0 fun q =>
    { q with
      armed := some
        { decl := { decl 2 none with kind := kind }, boundary := .stamp (time 0 0), cause := .take, armStamp := time 0 0
          lateStart := false } }

/-- A break opened, kept and left closed by each kind, and at a boundary. -/
theorem witness_BreaksStepped :
    (∀ kind ∈ [SegKind.commercial, .promo, .junction, .programme],
      (spot kind none).current 0 = some (current { decl 1 none with kind := kind } 1) ∧
        ((spot kind none).outlet 0).sched.brk = none ∧
        (spot kind (some openBreak)).current 0 = some (current { decl 1 none with kind := kind } 1) ∧
        ((spot kind (some openBreak)).outlet 0).sched.brk = some openBreak ∧
        ((spot kind (some openBreak)).outlet 0).loud.brk = some emptyLoudRecord) ∧
    ∀ kind ∈ [SegKind.commercial, .promo, .junction, .programme], ∀ brk ∈ [none, some openBreak],
      let s := thenArmed kind (spot .commercial brk)
      s.powered = true ∧ (s.outlet 0).intake.state = .active ∧
        s.current 0 = some (current { decl 1 none with kind := .commercial } 1) ∧ (s.outlet 0).sched.brk = brk ∧
        ((s.outlet 0).sched.armed.map fun m => (m.decl.kind, m.boundary.met s.time.air)) = some (kind, true) := by
  decide +kernel

/-- Outlet 0's gap timer, gap and excursion counter. -/
def counters (timer : GapTimer) (gap : Option OpenGap) (counter : Option Nat) : State :=
  onAir.modOutlet 0 fun t =>
    { t with subs := { t.subs with timer := timer, gap := gap, limit := some 2, record := some emptySubRecord }
             verdict := { t.verdict with counter := counter } }

/-- An open gap of three frames. -/
def gap : OpenGap := { start := time 0 7, rfn := some 7, length := 3 }

/-- A gap open, the timer at 0, 1 and 2, stopped and run out, and a counter stopped and at 0, 1 and 2; −10.00, and a code below it. -/
theorem witness_CountersRunAndFire :
    ((counters .expired (some gap) none).outlet 0).subs.gap = some gap ∧
    (∀ v ∈ [0, 1, 2], let s := counters (.running v) none (some v)
      (s.outlet 0).subs.gap = none ∧ (s.outlet 0).subs.timer = .running v ∧ s.current 0 = some (current (decl 1 none) 10) ∧
        (s.outlet 0).verdict.counter = some v ∧
        (s.limitsOf (current (decl 1 none) 10)).excursionThreshold ≤ (s.limitsOf (current (decl 1 none) 10)).excursionThreshold ∧
        (s.limitsOf (current (decl 1 none) 10)).excursionThreshold - 1 <
          (s.limitsOf (current (decl 1 none) 10)).excursionThreshold) ∧
    (∀ timer ∈ [GapTimer.stopped, .expired], let s := counters timer none none
      (s.outlet 0).subs.gap = none ∧ (s.outlet 0).subs.timer = timer ∧ (s.outlet 0).verdict.counter = none) ∧
    (let s := counters (.running 0) none (some 0)
     s.powered = true ∧ (s.outlet 0).intake.state = .active ∧ (s.outlet 0).intake.lastArrival = some (time 0 9, 9)) := by
  decide +kernel

/-- Two languages. -/
def english : Language := { a := 101, b := 110, c := 103 }

def french : Language := { a := 102, b := 114, c := 97 }

/-- A unit of outlet 0's subtitle service, of a kind, in English or another language. -/
def unit (kind : Byte) (language : Language) : SubUnit := { service := 3, kind := kind, language := language, text := [] }

/-- A segment that names a language, its gap timer running, stopped, or run out under an open gap. -/
def subtitled (timer : GapTimer) (gap : Option OpenGap) : State :=
  (counters timer gap none).modSched 0 fun q =>
    { q with current := some (current { decl 1 none with language := some english } 10) }

/-- No valid unit (none, one in another language, one of another service, one of an undefined kind), and a valid one. -/
theorem witness_SubtitleFrameChecked :
    (∀ timer ∈ [GapTimer.stopped, .running 1, .expired], ∀ g ∈ [none, some gap],
      let s := subtitled timer g
      s.current 0 = some (current { decl 1 none with language := some english } 10) ∧
        (s.outlet 0).subs.record = some emptySubRecord ∧ (s.outlet 0).subs.timer = timer ∧ (s.outlet 0).subs.gap = g ∧
        (s.outlet 0).subs.limit = some 2) ∧
    (let heard := fun u : SubUnit => decide (1 ≤ u.kind.toNat ∧ u.kind.toNat ≤ 3 ∧
        u.service.toNat = (live.outletSettings 0).subtitleService ∧ english = u.language)
     [unit 1 french, { unit 1 english with service := 4 }, unit 4 english].filter heard = [] ∧
      [unit 1 english].filter heard ≠ []) := by
  decide +kernel

/-- The limits of R100, R101 and R90 at their borders under the built-in class: −22.00 and −24.00 pass. -/
theorem witness_OutcomesDecided :
    let high := builtInClass.target + builtInClass.toleranceAbove
    let low := builtInClass.target - builtInClass.toleranceBelow
    high = -2200 ∧ low = -2400 ∧ high < -2199 ∧ -2401 ≤ high ∧ -2401 < low ∧ low ≤ -2400 ∧
      { builtInClass with shortTermMax := some (-1800) }.shortTermMax.isSome = true ∧
      emptyLoudRecord.shortTermMax = none ∧ Obligation.required ≠ .exempt := by
  decide +kernel

/-- A closed segment whose last final maximum has come. -/
def closedSegment : ClosedSegment :=
  { cur := current (decl 1 none) 10, cause := .next, stamp := time 0 10, loud := emptySegLoud
    subs := { framesSeen := 10, covered := 10, wrongLanguage := 0, gapCount := 1, longestGap := 1 }
    excursions := 0, member := false, finalPeak := some (-12000) }

def closing : State := onAir.modVerdict 0 fun v => { v with segSlot := some closedSegment }

/-- A closed break with its final maximum. -/
def closedBreak : ClosedBreak :=
  { brk := openBreak, cause := .next, stamp := time 0 10, loud := emptyLoudRecord, finalPeak := true }

/-- A segment that fails by its gap, and a break; whether the class holds on fail is as the profile says. -/
theorem witness_VerdictsFormed :
    (closing.outlet 0).verdict.segSlot = some closedSegment ∧ closedSegment.finalPeak = some (-12000) ∧
      subOutcome closedSegment.cur.decl.obligation closedSegment.subs = .gap ∧
      ((closing.modVerdict 0 fun v => { v with brkSlot := some closedBreak }).outlet 0).verdict.brkSlot = some closedBreak ∧
      closedBreak.finalPeak = true := by
  decide +kernel

/-- A PROFILE-STAGE body: eight built-in classes, and gap limits of 25, the smallest. -/
def profileBody : Bytes :=
  (List.replicate 8 (classBytes builtInClass)).flatten ++ [0, 0, 0] ++ le 2 25 ++ le 2 25 ++ le 2 0

/-- The profile those bytes spell. -/
def staged : Profile := { builtInProfile with gapRequired := 25, gapRelaxed := 25, overrunGrace := 0 }

/-- Slot 1 as the target, its version in use by outlet 0's segment. -/
def inUse : State :=
  { onAir with profiles := { slot0 := some { version := 2, profile := builtInProfile }
                             slot1 := some { version := 1, profile := builtInProfile }, latestIsOne := false } }

theorem witness_ProfileStageTaken :
    readProfileStage [] = none ∧ Serving (put live .compliance 8 []) .compliance 8 (req 8 []) ∧
      readProfileStage profileBody = some staged ∧
      (let s := put inUse .compliance 8 profileBody
       Serving s .compliance 8 (req 8 profileBody) ∧ s.profiles.latestIsOne = false ∧
        s.profiles.slot1 = some { version := 1, profile := builtInProfile } ∧ 0 < s.references 1) ∧
      Serving (put live .compliance 8 profileBody) .compliance 8 (req 8 profileBody) ∧ live.profiles.latestIsOne = false ∧
      live.profiles.slot1 = none := by
  decide +kernel

/-! ### Witnesses: chapters 7 and 8 -/

/-- A directory entry of one frame stamped 0:0. -/
def entry (state : PageState) (sequence fill holds : Nat) : PageEntry :=
  { state := state, sequence := some (BitVec.ofNat 32 sequence), span := some (time 0 0, time 0 0), rfns := some (0, 0), fill := fill,
    frameCount := 1, holdCount := holds, flags := 0 }

/-- A directory in force. -/
def pages (s : State) (d : List (Nat × PageEntry)) : State := { s with directory := d, pageSeq := 9 }

/-- Outlet 0's writer with a FIFO. -/
def fifo (s : State) (mode : WriterMode) (items : List FifoItem) : State :=
  s.modWriter 0 fun w => { w with mode := mode, fifo := items }

/-- Every page of outlet 0's ring, from a sequence on, in one state. -/
def ringOf (state : PageState) (holds : Nat) : List (Nat × PageEntry) :=
  (List.range 8).map fun i => (16 + i, entry state (i + 1) 64 holds)

/-- The write position in the middle of a ring whose next free page lies before it, and a ring of CLOSED pages of which the oldest is
held: the choices take page 18 and page 17 (R120). -/
theorem test_page_choices :
    ((pages live [(21, entry .closed 6 64 0), (22, entry .released 7 64 1), (23, entry .closed 8 64 0), (16, entry .closed 1 64 0),
          (17, entry .opened 2 64 0)]).modWriter 0 fun w => { w with writePos := some 20 }).choiceOne 0 = some 18 ∧
      (pages live ((16, entry .closed 1 64 1) :: (ringOf .closed 0).tail)).choiceTwo 0 = some (17, entry .closed 2 64 0) := by
  decide +kernel

/-- A drop run of one frame. -/
def dropRun : DropRun := { count := 1, firstStamp := time 0 0, firstRfn := 0, lastStamp := time 0 0, lastRfn := 0 }

/-- The largest record that fits beside a fill of 131,056, and one byte too many; a ring with no page free; and a close mark. -/
theorem witness_RecordTakePlaces :
    (let s := fifo (pages live [(16, entry .opened 1 131056 0)]) .writing [.record (someRecord 16)]
     s.powered = true ∧ (s.outlet 0).writer.placed = none ∧ (s.outlet 0).writer.mode ≠ .suspended ∧
      s.openPage 0 = some (16, entry .opened 1 131056 0) ∧ 131056 + (someRecord 16).bytes.length ≤ 131072) ∧
    (let s := fifo (pages live [(16, entry .opened 1 131057 0)]) .writing [.record (someRecord 16)]
     131072 < 131057 + (someRecord 16).bytes.length ∧ (s.outlet 0).writer.placed = none ∧
      (report 0 16 true (s.modPage 16 fun e => { e with state := .closed })).openPage 0 = none) ∧
    (let s := fifo live .idle [.record (someRecord 16)]
     s.openPage 0 = none ∧ s.choiceOne 0 = some 16) ∧
    (let s := fifo (pages live (ringOf .closed 0)) .idle [.record (someRecord 16)]
     s.openPage 0 = none ∧ s.choiceOne 0 = none ∧ s.choiceTwo 0 = some (16, entry .closed 1 64 0)) ∧
    (let s := fifo (pages live (ringOf .closed 1)) .idle [.record (someRecord 16)]
     s.openPage 0 = none ∧ s.choiceOne 0 = none ∧ s.choiceTwo 0 = none ∧
      ((s.modWriter 0 fun w => { w with dropRun := some dropRun }).outlet 0).writer.dropRun.isSome = true) ∧
    (let s := fifo (pages live [(16, entry .opened 1 64 0)]) .writing [.closeMark, .record (someRecord 16)]
     (s.outlet 0).writer.fifo = [.closeMark, .record (someRecord 16)] ∧ s.openPage 0 = some (16, entry .opened 1 64 0)) := by
  decide +kernel

/-- A record of 4112 bytes, the first of its two bursts in progress. -/
def firstBurst : State := { placedIn live 16 4112 with port := some (.record 0 4096 false) }

/-- A deferred read of outlet 0's page of sequence 2. -/
def deferredRead (offset length : Nat) : Deferred :=
  { tag := 1, outlet := 0, sequence := 2, offset := offset, length := length, age := 0 }

/-- The first and the last burst of a record, and deferred reads: met at a fill of 80 and one byte past it, and at a close at a fill of
64 met, cut short, and left without a byte. -/
theorem witness_RecordBurstsStore :
    (firstBurst.port = some (.record 0 4096 false) ∧ firstBurst.restarting = none ∧
      ∃ p r, (firstBurst.outlet 0).writer.inProgress = some (p, r)) ∧
    (writing.port = some (.record 0 16 true) ∧ writing.restarting = none ∧
      ∃ p r, (writing.outlet 0).writer.inProgress = some (p, r)) ∧
    64 + 16 ≤ 64 + (someRecord 16).bytes.length ∧ ¬64 + 17 ≤ 64 + (someRecord 16).bytes.length ∧
    deferredFetch 17 64 true (deferredRead 48 16) = some (.page 1 0 2 17 48 16 true) ∧
    deferredFetch 17 64 true (deferredRead 48 17) = some (.page 1 0 2 17 48 16 true) ∧
    deferredFetch 17 64 true (deferredRead 64 1) = none :=
  ⟨⟨by decide, by decide, _, _, rfl⟩, ⟨by decide, by decide, _, _, rfl⟩, by decide⟩

/-- A FIFO that a record of 16 bytes just fills, drop runs, suspension with and without an eligible page, and a WAITING outlet. -/
theorem witness_WriteFifoAtFrame :
    (let s := fifo live .writing [.record (someRecord 262128)]
     (s.outlet 0).writer.mode ≠ .suspended ∧ (s.outlet 0).writer.fifo = [.record (someRecord 262128)] ∧
      (someRecord 262128).bytes.length + (someRecord 16).bytes.length = 262144 ∧
      262144 < (someRecord 262128).bytes.length + (someRecord 17).bytes.length ∧ (s.outlet 0).writer.dropRun = none) ∧
    ((live.modWriter 0 fun w => { w with dropRun := some dropRun }).outlet 0).writer.dropRun = some dropRun ∧
    (let s := fifo (pages live (ringOf .closed 1)) .suspended []
     (s.outlet 0).writer.mode = .suspended ∧ s.eligible 0 = false) ∧
    (let s := (fifo live .suspended []).modWriter 0 fun w => { w with suspendRun := some dropRun }
     (s.outlet 0).writer.mode = .suspended ∧ s.eligible 0 = true ∧ (s.outlet 0).writer.suspendRun = some dropRun) ∧
    (live.powered = true ∧ (live.outlet 0).intake.state = .waiting ∧ (live.outlet 0).writer.mode ≠ .suspended ∧
      (live.outlet 0).writer.dropRun = none ∧ occupancy (live.outlet 0).writer.fifo = 0) ∧
    onAir.powered = true ∧ (onAir.outlet 0).intake.state = .active ∧ (onAir.current 0).isSome = true := by
  have len (n : Nat) : (someRecord n).bytes.length = n := by simp [someRecord]
  refine ⟨⟨by decide +kernel, rfl, by simp [len], by simp [len], by decide +kernel⟩, by decide +kernel, by decide +kernel,
    by decide +kernel, by decide +kernel, by decide +kernel⟩

/-- A page read waiting on the compliance link. -/
def pageFetch : Fetch := .page 7 0 1 16 0 16 false

def reading : State := live.modLink .compliance fun p => { p with fetches := [pageFetch], held := some 7, outstanding := [7] }

theorem witness_GrantsOneBurst :
    writing.powered = true ∧ writing.port.isSome = true ∧ live.decision = none ∧
      (let s := placedIn live 8191 16
       s.port = none ∧ s.decision = some { granted := .writer 0, highPos := 1, lowPos := 0 } ∧
        8191 * 131072 + 0 + 0 + 16 ≤ s.settings.memoryGiB * 1073741824) ∧
      reading.port = none ∧ reading.decision = some { granted := .reader .compliance, highPos := 0, lowPos := 1 } ∧
      { placedIn live 8191 16 with highPos := 9 }.decision = some { granted := .writer 0, highPos := 1, lowPos := 0 } ∧
      (reading.link .compliance).fetches = [pageFetch] ∧ reading.inHigh (.reader .compliance) = false := by
  decide +kernel

/-- A PAGE-READ body for outlet 0. -/
def readBody (sequence offset length : Nat) : Bytes := [0] ++ le 4 sequence ++ le 4 offset ++ le 2 length

/-- Outlet 0's ring with a CLOSED page of sequence 1 and an OPEN one of sequence 2, both filled to 64. -/
def stored : State := pages live [(16, entry .closed 1 64 0), (17, entry .opened 2 64 0)]

/-- The same with the compliance link's deferred table full. -/
def crowded : State :=
  stored.modLink .compliance fun p =>
    { p with deferred := List.replicate 4 { tag := 1, outlet := 0, sequence := 2, offset := 64, length := 1, age := 0 } }

/-- A restart that waits for a burst, its link reset. -/
def wait : RestartProgress :=
  { reload := true, tag := none, notes := Vector.replicate 8 { pending := 0, armed := none, closed := none }, aborted := 0 }

/-- Reads that end at the fill, pass it by one, begin at it, and wait; and the same in a full deferred table and during a restart. -/
theorem witness_PageReadTaken :
    readPageRead [] = none ∧ Serving (put stored .compliance 11 []) .compliance 11 (req 11 []) ∧
      stored.findPage 0 3 = none ∧ stored.findPage 0 1 = some (16, entry .closed 1 64 0) ∧
      stored.findPage 0 2 = some (17, entry .opened 2 64 0) ∧
      (∀ x ∈ [(3, 0, 64), (1, 48, 16), (1, 48, 17), (1, 64, 1), (2, 64, 1)],
        readPageRead (readBody x.1 x.2.1 x.2.2) =
            some { outlet := 0, sequence := BitVec.ofNat 32 x.1, offset := x.2.1, length := x.2.2 } ∧
          Serving (put stored .compliance 11 (readBody x.1 x.2.1 x.2.2)) .compliance 11 (req 11 (readBody x.1 x.2.1 x.2.2))) ∧
      stored.restarting = none ∧ (stored.link .compliance).deferred.length < 4 ∧
      (let s := put crowded .compliance 11 (readBody 2 64 1)
       Serving s .compliance 11 (req 11 (readBody 2 64 1)) ∧ s.restarting = none ∧ 4 ≤ (s.link .compliance).deferred.length) ∧
      (let s := put { stored with restarting := some wait } .compliance 11 (readBody 2 64 1)
       Serving s .compliance 11 (req 11 (readBody 2 64 1)) ∧ s.restarting.isSome = true) := by
  decide +kernel

/-- A fetch in progress. -/
def fetching (f : Fetch) (abandoned : Bool) : State := { stored with port := some (.read .compliance f abandoned) }

theorem witness_PageFetchAnswered :
    (fetching pageFetch false).port = some (.read .compliance (.page 7 0 1 16 0 16 false) false) ∧
      (fetching pageFetch false).restarting = none ∧ (fetching pageFetch true).port = some (.read .compliance pageFetch true) ∧
      (fetching pageFetch false).findPage 0 1 = some (16, entry .closed 1 64 0) ∧
      (fetching (.page 7 0 3 16 0 16 false) false).findPage 0 3 = none := by
  decide +kernel

/-- A PAGE-RELEASE body for outlet 0. -/
def releaseBody (sequence : Nat) : Bytes := [0] ++ le 4 sequence

theorem witness_PageReleaseTaken :
    readPageRelease [] = none ∧ Serving (put stored .compliance 12 []) .compliance 12 (req 12 []) ∧
      (∀ n ∈ [1, 2, 3], readPageRelease (releaseBody n) = some (0, BitVec.ofNat 32 n) ∧
        Serving (put stored .compliance 12 (releaseBody n)) .compliance 12 (req 12 (releaseBody n))) ∧
      stored.findPage 0 3 = none ∧ stored.findPage 0 1 = some (16, entry .closed 1 64 0) ∧
      stored.findPage 0 2 = some (17, entry .opened 2 64 0) ∧
      (pages live [(16, entry .released 1 64 0)]).findPage 0 1 = some (16, entry .released 1 64 0) := by
  decide +kernel

/-- One deferred read aged 50 beside one aged 49. -/
def aged : State :=
  stored.modLink .compliance fun p =>
    { p with deferred := [{ tag := 1, outlet := 0, sequence := 2, offset := 64, length := 1, age := 50 },
                          { tag := 2, outlet := 0, sequence := 2, offset := 64, length := 1, age := 49 }] }

theorem witness_DeferredReadTimesOut :
    aged.powered = true ∧ (∃ d ∈ (aged.link .compliance).deferred, 50 ≤ d.age) ∧ Link.automation ≠ .compliance := by
  decide +kernel

/-- A HOLD-PLACE body for outlet 0 over 0:0 to 0:0. -/
def holdBody : Bytes := [0] ++ airBytes (time 0 0) ++ airBytes (time 0 0)

/-- An entry of the Hold Table over pages 1 to 4 of outlet 0. -/
def hold (id : Nat) : Hold :=
  { id := id, origin := .manual, outlet := 0, spanFirst := time 0 0, spanLast := time 0 0, firstSeq := 1, lastSeq := 4, pages := 4,
    trimmed := false, beforeOldest := false, placed := time 0 0 }

/-- A full ring, of which a placement may hold the newest four. -/
def holdable : State := pages live (ringOf .closed 0)

theorem witness_HoldPlaced :
    readHoldPlace holdBody = some (0, time 0 0, time 0 0) ∧
      (let s := put { holdable with holds := (List.range 32).map fun i => hold (i + 1) } .compliance 13 holdBody
       Serving s .compliance 13 (req 13 holdBody) ∧ 32 ≤ s.holds.length) ∧
      (let s := put live .compliance 13 holdBody
       Serving s .compliance 13 (req 13 holdBody) ∧ s.holds.length < 32 ∧
        trimRange (s.heldPages 0) (s.budget 0) (s.candidates 0 (time 0 0) (time 0 0)) = []) ∧
      (let s := put { holdable with holds := (List.range 31).map fun i => hold (i + 1) } .compliance 13 holdBody
       Serving s .compliance 13 (req 13 holdBody) ∧ s.holds.length < 32 ∧
        (trimRange (s.heldPages 0) (s.budget 0) (s.candidates 0 (time 0 0) (time 0 0))).length = 4 ∧
        directoryWf s.directory = true) := by
  decide +kernel

/-- The same ring with its pages 1 to 4 held once. -/
def held : State := { pages live (ringOf .closed 1) with holds := [hold 65535] }

theorem witness_HoldReleased :
    (∀ id ∈ [65535, 0], readHoldRelease (le 2 id) = some id ∧
      Serving (put held .compliance 14 (le 2 id)) .compliance 14 (req 14 (le 2 id))) ∧
      (∀ h ∈ held.holds, h.id ≠ 0) ∧ held.holds.find? (fun x => x.id == 65535) = some (hold 65535) ∧
      directoryWf held.directory = true := by
  decide +kernel

/-! ### Witnesses: chapters 9 to 11 -/

/-- An evidence record of a kind with few fields. -/
def stray (n : Nat) : EvidenceRecord :=
  { draft := { outlet := none, stamp := time 0 0, body := .strayCue 3 1 }, sequence := BitVec.ofNat 32 n, lossBefore := false }

/-- The block with an evidence ring of which head, tail and cursor are given, and so many records in the FIFO. -/
def evidence (head tail cursor waiting : Nat) : State :=
  { live with evidence := { restEvidence with
                              sequence := BitVec.ofNat 32 (head + waiting), head := BitVec.ofNat 32 head
                              tail := BitVec.ofNat 32 tail, cursor := BitVec.ofNat 32 cursor
                              fifo := (List.range waiting).map fun i => stray (head + i) } }

/-- Sets with every member, and with one bit more, which names none (R188, log entry 35). -/
theorem test_set_bits_without_member_refused :
    (readMaskSet [255, 1]).isSome = true ∧ readMaskSet [0, 2] = none ∧ (readFlagsClear [255, 0]).isSome = true ∧
      readFlagsClear [1, 2] = none := by
  decide +kernel

theorem witness_EvidenceSequence :
    (evidence 0 0 0 63).evidence.fifo.length < 64 ∧ 64 ≤ (evidence 0 0 0 64).evidence.fifo.length := by
  decide +kernel

/-- A burst of 32 into a ring with one slot free overwrites 31 records: the cursor, three past the tail, is passed by 28 of them, and
all but the first record of the burst carry LOSS_BEFORE (R152, R154). -/
theorem test_burst_overwrites :
    let e := (evidence 16400 17 20 40).grantEvidence.evidence
    e.tail = 48 ∧ e.lost = 31 ∧ e.cursor = 48 ∧ e.skipped = 28 ∧
      e.fifo.map EvidenceRecord.lossBefore = [false] ++ List.replicate 31 true ++ List.replicate 8 false := by
  decide +kernel

/-- A full ring of 16,384 records one slot before its end with the cursor at the tail, and one with a slot free and the cursor three
past the tail. -/
theorem witness_EvidenceBurstGranted :
    (∀ s ∈ [evidence 32767 16383 16383 64, evidence 16400 17 20 40],
     s.powered = true ∧ s.port = none ∧ s.decision = some { granted := .evidence, highPos := 9, lowPos := 0 } ∧
      0 < s.settings.regionCount * 1024 ∧ s.settings.regionCount * 1024 ≤ 131072 ∧
      s.evidence.unacknowledged ≤ s.settings.regionCount * 1024 ∧
      (s.evidence.cursor - s.evidence.tail).toNat ≤ s.evidence.unacknowledged) := by
  decide +kernel

theorem witness_EvidenceBurstStores :
    ({ evidence 0 0 0 2 with port := some (.evidence 2) } : State).port = some (.evidence 2) ∧
      ({ evidence 0 0 0 2 with port := some (.evidence 2) } : State).restarting = none := by
  decide +kernel

/-- An EVID-READ body, as each link's rule lists its two fields. -/
def evidBody (l : Link) (offset count : Nat) : Bytes :=
  match l with
  | .compliance => le 4 offset ++ le 1 count
  | .automation => le 1 count ++ le 4 offset

/-- Offsets at the last unacknowledged record and just past it, and the automation link with a backlog of one and of none. -/
theorem witness_EvidReadTaken :
    (∀ l ∈ [Link.automation, .compliance], readEvidRead l (evidBody l 0 33) = none ∧
      Serving (put live l 16 (evidBody l 0 33)) l 16 (req 16 (evidBody l 0 33))) ∧
      (∀ n ∈ [2, 3], readEvidRead .compliance (evidBody .compliance n 32) = some (n, 32) ∧
        Serving (put (evidence 3 0 2 0) .compliance 16 (evidBody .compliance n 32)) .compliance 16
          (req 16 (evidBody .compliance n 32))) ∧
      0 < min 32 ((evidence 3 0 2 0).evidence.unacknowledged - 2) ∧ min 32 ((evidence 3 0 2 0).evidence.unacknowledged - 3) = 0 ∧
      (∀ n ∈ [0, 1], readEvidRead .automation (evidBody .automation n 1) = some (n, 1) ∧
        Serving (put (evidence 3 0 2 0) .automation 16 (evidBody .automation n 1)) .automation 16
          (req 16 (evidBody .automation n 1))) ∧
      0 < min 1 (evidence 3 0 2 0).evidence.backlog ∧ min 1 (evidence 3 0 3 0).evidence.backlog = 0 ∧
      Serving (put (evidence 3 0 3 0) .automation 16 (evidBody .automation 0 1)) .automation 16
        (req 16 (evidBody .automation 0 1)) := by
  decide +kernel

/-- R155 lists offset, then count, and R156 count, then offset. -/
theorem test_evid_read_orders :
    readEvidRead .compliance [2, 0, 0, 0, 5] = some (2, 5) ∧ readEvidRead .automation [5, 2, 0, 0, 0] = some (2, 5) := by
  decide +kernel

/-- In HOLD-LIST an origin's id follows its code only where it has one (R188); the evidence record's field is of one length (R186). -/
theorem test_manual_origin_in_hold_list :
    listedOriginBytes .manual = [3] ∧ listedOriginBytes (.autoBreak 1) = [2, 1, 0, 0, 0] ∧ originBytes .manual = [3, 0, 0, 0, 0] := by
  decide +kernel

/-- An evidence fetch of two records from a sequence on. -/
def evidFetch (first : Nat) (cleared : Bool) : Fetch := .evid 7 (BitVec.ofNat 32 first) 2 2 cleared

/-- A fetch both of whose records still stand, one that has lost its first, and ones overtaken or given up. -/
theorem witness_EvidFetchAnswered :
    (∀ x ∈ [(1, false, false), (0, false, false), (1, true, false), (1, false, true)],
      let s : State := { evidence 3 1 1 0 with port := some (.read .compliance (evidFetch x.1 x.2.1) x.2.2) }
      s.port = some (.read .compliance (.evid 7 (BitVec.ofNat 32 x.1) 2 2 x.2.1) x.2.2) ∧ s.restarting = none) ∧
      0 < 2 - min 2 (passedBy (evidence 3 1 1 0).evidence.tail 1) := by
  decide +kernel

/-- Acknowledgements of all three records, of one too many, and under an expected tail that stands and one that does not. -/
theorem witness_EvidAckTaken :
    readEvidAck [] = none ∧ Serving (put live .compliance 17 []) .compliance 17 (req 17 []) ∧
      (∀ n ∈ [3, 4], readEvidAck (le 4 n) = some (n, none) ∧
        Serving (put (evidence 3 0 2 0) .compliance 17 (le 4 n)) .compliance 17 (req 17 (le 4 n))) ∧
      3 ≤ ((evidence 3 0 2 0).evidence.head - (evidence 3 0 2 0).evidence.tail).toNat ∧
      ((evidence 3 0 2 0).evidence.head - (evidence 3 0 2 0).evidence.tail).toNat < 4 ∧
      readEvidAck (le 4 3 ++ le 4 1) = some (3, some 1) ∧ (1 : BitVec 32) ≠ (evidence 3 0 2 0).evidence.tail ∧
      Serving (put (evidence 3 0 2 0) .compliance 17 (le 4 3 ++ le 4 1)) .compliance 17 (req 17 (le 4 3 ++ le 4 1)) := by
  decide +kernel

/-- A message of a type, tag and code with its check (R161, R187). -/
def message (type tag code : Nat) (body : Bytes) : Bytes :=
  let front := byte type ++ byte tag ++ byte code ++ byte 0 ++ le 2 body.length ++ body
  front ++ le 2 (crc16 front).toNat

/-- A link port with so many tags outstanding, or with its reset line asserted. -/
def outstanding (n : Nat) : State :=
  live.modLink .automation fun p => { p with outstanding := (List.range n).map fun i => BitVec.ofNat 8 i }

def resetting (s : State) : State := s.modLink .automation fun p => { p with resetLine := true }

theorem witness_MessageReceived :
    live.powered = true ∧ ((resetting live).link .automation).resetLine = true ∧ (live.link .automation).resetLine = false ∧
      readMessage [1] = .discard .malformed ∧ readMessage (message 2 1 20 []) = .discard .unexpectedResponse ∧
      readMessage (message 1 7 20 []) = .request (req 20 []) ∧ (7 : Tag) ∉ ((outstanding 7).link .automation).outstanding ∧
      ((outstanding 7).link .automation).outstanding.length < 8 ∧ (7 : Tag) ∈ ((outstanding 8).link .automation).outstanding ∧
      readMessage (message 1 8 20 []) = .request { req 20 [] with tag := 8 } ∧
      (8 : Tag) ∉ ((outstanding 8).link .automation).outstanding ∧
      8 ≤ ((outstanding 8).link .automation).outstanding.length ∧ ([] : Bytes).length ≤ 4352 ∧
      ((live.respond .automation 7 20 .ok .none).link .automation).responses =
        { tag := 7, code := 20, status := .ok, body := .none } :: [] := by
  decide +kernel

/-- Loading; another link's request; a body that does not fit; and codes 0, 1, 25 and 26. -/
theorem witness_RequestChecks :
    Waits (put State.reset .automation 20 []) .automation (req 20 []) ∧ State.reset.loading = true ∧
      requestOf (.status .automation) = some (.automation, 20) ∧ Waits (put live .automation 12 []) .automation (req 12 []) ∧
      requestOf (.pageRelease .automation) = some (.automation, 12) ∧
      mayMake live.settings.timeAuthority .automation 12 = false ∧
      Waits (put live .compliance 12 []) .compliance (req 12 []) ∧ requestOf (.pageRelease .compliance) = some (.compliance, 12) ∧
      mayMake live.settings.timeAuthority .compliance 12 = true ∧ fitsCode .compliance 12 [] = false ∧ live.loading = false ∧
      ∀ n ∈ [0, 1, 25, 26], Waits (put live .automation n []) .automation (req n []) := by
  decide +kernel

theorem witness_FlagsClearedMaskSet :
    Serving (put live .automation 23 [0xFF, 0]) .automation 23 (req 23 [0xFF, 0]) ∧
      readFlagsClear [0xFF, 0] = some (flagsOfBits 255) ∧
      Serving (put live .automation 24 [0xFF, 1]) .automation 24 (req 24 [0xFF, 1]) ∧
      readMaskSet [0xFF, 1] = some { flags := flagsOfBits 255, evidence := true } := by
  decide +kernel

theorem witness_LinkResets :
    Link.compliance ≠ .automation ∧ live.powered = true ∧
      Waits (put State.reset .automation 25 []) .automation (req 25 []) ∧ (req 25 []).code = 25 ∧
      (live.link .automation).resetLine = false ∧ ((resetting live).link .automation).resetLine = true := by
  decide +kernel

theorem witness_PowerTransitions : live.powered = true := rfl

theorem witness_LoadCompletes : State.reset.powered = true ∧ State.reset.loading = true := ⟨rfl, rfl⟩

/-- A read waiting for its grant when its link is reset: it is granted, given up, and completes without a response (R160, R173). -/
theorem test_reset_read_granted_and_discarded :
    let reset := after (.linkResetLineRise .compliance) reading
    let granted := after .arbiterGrant reset
    let done := after .pageReadFetchComplete granted
    (reset.link .compliance).fetches = [pageFetch] ∧ (reset.link .compliance).givenUp = 1 ∧
      granted.port = some (.read .compliance pageFetch true) ∧ (granted.link .compliance).fetches = [] ∧
      (granted.link .compliance).givenUp = 0 ∧ done.port = none ∧ (done.link .compliance).responses = [] := by
  decide +kernel

/-- A reload takes every field of the image copy but its initial profile (R175, R181). -/
theorem test_reload_keeps_profile :
    let copy : Image := { image with timeAuthority := .automation, profile := { builtInProfile with overrunGrace := 9 } }
    let u := ({ live with imageCopy := copy } : State).applyReload true
    u.settings.timeAuthority = .automation ∧ u.settings.profile = builtInProfile := by
  decide +kernel

/-- The bytes of an image, field by field in the order of R175 (log entry 6). -/
def imageBytes (g : Image) : Bytes :=
  let each := fun f : OutletSettings → Bytes => g.outlets.toList.flatMap f
  byte g.memoryGiB ++ each (fun o => yesNo o.enabled) ++ each (fun o => le 2 o.ringFirst) ++ each (fun o => le 4 o.ringCount) ++
    each (fun o => byte (policyCode o.policy)) ++ each (fun o => byte o.returnDelay) ++ each (fun o => byte o.subtitleService) ++
    le 2 g.regionFirst ++ le 4 g.regionCount ++ byte (linkCode g.timeAuthority) ++
    g.high.toList.flatMap (fun h => byte (if h then 0 else 1)) ++ maskBytes g.masks.automation ++ maskBytes g.masks.compliance ++
    profileBytes g.profile

theorem test_image_read : readImage (imageBytes image) = some image := by decide +kernel

/-- The same image with outlet 1's ring laid over outlet 0's. -/
def overlapping : Image := { image with outlets := image.outlets.set 1 (ring 23 .stop 0) }

/-- A save of the image in flight. -/
def saving : State := { live with save := some { image := image, bytes := imageBytes image, tag := some 7 } }

theorem witness_SettingsSaved :
    readImage [] = none ∧ Serving (put live .compliance 18 []) .compliance 18 (req 18 []) ∧
      readImage (imageBytes overlapping) = some overlapping ∧ overlapping.refusal = some .overlap ∧
      Serving (put live .compliance 18 (imageBytes overlapping)) .compliance 18 (req 18 (imageBytes overlapping)) ∧
      Serving (put live .compliance 18 (imageBytes image)) .compliance 18 (req 18 (imageBytes image)) ∧ image.refusal = none ∧
      live.save = none ∧ live.restarting = none ∧
      Serving (put saving .compliance 18 (imageBytes image)) .compliance 18 (req 18 (imageBytes image)) ∧
      saving.save.isSome = true ∧ saving.powered = true ∧
      ({ saving with save := some { image := image, bytes := [], tag := none } } : State).save =
        some { image := image, bytes := [], tag := none } := by
  decide +kernel

/-- A reload of the image in force with an OPEN page whose FIFO is empty, and a restart without a reload while a save is in flight. -/
theorem witness_RestartKeepsRecords :
    readRestart [1] = some true ∧ readRestart [0] = some false ∧
      (let s := put (fifo (pages onAir [(16, entry .opened 1 64 0)]) .writing []) .compliance 19 [1]
       Serving s .compliance 19 (req 19 [1]) ∧ s.restarting = none ∧ s.save = none ∧ s.clearing true = false ∧
        directoryWf s.directory = true ∧ (s.outlet 0).writer.mode = .writing ∧ (s.outlet 0).writer.fifo = [] ∧
        s.openPage 0 = some (16, entry .opened 1 64 0)) ∧
      (let s := put saving .compliance 19 [0]
       Serving s .compliance 19 (req 19 [0]) ∧ s.restarting = none ∧ s.clearing false = false) := by
  decide +kernel

/-- A clearing reload that waits for an evidence burst. -/
def waitingBurst : State := { evidence 0 0 0 1 with port := some (.evidence 1), restarting := some wait }

/-- A reload of another ring layout, with the port free and with a burst in progress, and the end of that burst. -/
theorem witness_RestartClearsRecords :
    ((let s := put { onAir with imageCopy := defaultImage } .compliance 19 [1]
      Serving s .compliance 19 (req 19 [1]) ∧ s.restarting = none ∧ s.save = none ∧ s.clearing true = true ∧ s.port = none) ∧
    (let s := put { onAir with imageCopy := defaultImage, port := some (.evidence 1) } .compliance 19 [1]
     Serving s .compliance 19 (req 19 [1]) ∧ s.restarting = none ∧ s.save = none ∧ s.clearing true = true ∧
      s.port.isSome = true)) ∧
    waitingBurst.restarting = some wait ∧ wait.reload = true ∧ waitingBurst.port.isSome = true ∧
    ∃ t, exec .evidenceBurstComplete { waitingBurst with restarting := none } = .next t ∧ t.port = none :=
  ⟨by decide +kernel, by decide, by decide, by decide, _, rfl, by decide +kernel⟩

end Sys2Proof.Tests
end

section
/-! Air time and cue lines (chapter 2): what the operations of the Time Base leave of it, and the statements on the qualification
count and on TIME-SET. -/

namespace Sys2Proof.Machine

/-! ### The Time Base after each operation (R20 to R24) -/

@[simp] theorem State.stepTime_time (s : State) (c : StepCause) (new : AirTime) (ref : RefState) :
    (s.stepTime c new ref).time = { s.time with air := new } :=
  (s.stepTime_spec c new ref).1.time

@[simp] theorem State.pulseTick_time (s : State) :
    s.pulseTick.time = { s.time.tick with pulseTick := some s.time.tick.air } := by
  simp [State.pulseTick, State.tick_time]

@[simp] theorem State.answerSet_time (s : State) (p : PendingSet) (old : AirTime) (ref : RefState) :
    (s.answerSet p old ref).time = { s.time with pendingSet := none } := rfl

@[simp] theorem State.enterLocked_time (s : State) (step : Int) :
    (s.enterLocked step).time = { s.time with ref := .locked } := rfl

@[simp] theorem State.applySet_time (s : State) (p : PendingSet) :
    (s.applySet p).time =
      { TimeBase.enter { s.time with air := p.value } s.time.settled with pendingSet := none } := by
  simp [State.applySet]

/-! ### The qualification count (R19) -/

@[simp] theorem TimeBase.tick_qualification (b : TimeBase) : b.tick.qualification = b.qualification := rfl

@[simp] theorem TimeBase.tick_ref (b : TimeBase) : b.tick.ref = b.ref := rfl

@[simp] theorem TimeBase.enter_qualification (b : TimeBase) (ref : RefState) :
    (b.enter ref).qualification = b.qualification := rfl

@[simp] theorem TimeBase.enter_ref (b : TimeBase) (ref : RefState) : (b.enter ref).ref = ref := rfl

/-- A set applied in LOCKED leaves the part in LOCKED (R24). -/
theorem TimeBase.settled_of_locked {b : TimeBase} (h : b.ref = .locked) : b.settled = .locked := by
  simp [TimeBase.settled, h]

theorem State.lockStep_qualification (s : State) : s.lockStep.time.qualification = s.time.qualification := by
  unfold State.lockStep
  split
  case h_1 => simp
  case h_2 => dsimp only; split <;> simp

theorem State.lock_qualification (s : State) : s.lock.time.qualification = s.time.qualification := by
  simp [State.lock, State.lockStep_qualification]

/-- Whatever a mark brings, the count stays as the pulse left it (R18, R19). -/
theorem State.markPulse_qualification (s : State) (ticked : Bool) :
    (s.markPulse ticked).time.qualification = s.time.qualification := by
  unfold State.markPulse
  split
  case h_1 => rfl
  case h_2 =>
    split
    · exact s.lock_qualification
    · rfl
  case h_3 =>
    split
    · rfl
    · cases ticked <;> simp

/-- A mark in LOCKED, with or without a set to apply, does not leave LOCKED (R18, R24). -/
theorem State.markPulse_ref_of_locked {s : State} (h : s.time.ref = .locked) (ticked : Bool) :
    (s.markPulse ticked).time.ref = .locked := by
  unfold State.markPulse
  simp only [h]
  split
  · exact h
  · cases ticked <;> simp [TimeBase.settled_of_locked, h]

theorem State.acceptPulse_qualification (s : State) (t : Instant) (wellSpaced : Bool) :
    (s.acceptPulse t wellSpaced).time.qualification = s.time.qualify wellSpaced := by
  unfold State.acceptPulse
  dsimp only
  split <;> split <;> simp [State.markPulse_qualification]

/-- An accepted pulse in LOCKED, well spaced or not, does not leave LOCKED (R19). -/
theorem State.acceptPulse_ref_of_locked {s : State} (h : s.time.ref = .locked) (t : Instant) (wellSpaced : Bool) :
    (s.acceptPulse t wellSpaced).time.ref = .locked := by
  unfold State.acceptPulse
  simp only [h, beq_self_eq_true, if_true]
  split
  · exact State.markPulse_ref_of_locked (by simp [TimeBase.notePulse, h]) true
  · simp [TimeBase.notePulse, h]

/-- What a spacing is, where there is a previous accepted frame pulse (R18). -/
theorem TimeBase.spacing_of_previous {b : TimeBase} {p : Instant} (h : b.previous = some p) (t : Instant) :
    b.spacing t =
      if t - p < 38000000 then .tooClose else if t - p ≤ 42000000 then .wellSpaced else .accepted := by
  unfold TimeBase.spacing
  rw [h]
  rfl

theorem TimeBase.spacing_of_none {b : TimeBase} (h : b.previous = none) (t : Instant) : b.spacing t = .accepted := by
  unfold TimeBase.spacing
  rw [h]

/-- The count after a frame pulse, by its spacing: neither the pulse's tick nor its mark touches it (R18, R19). -/
theorem State.framePulse_qualification (s : State) (t : Instant) :
    (s.framePulse t).time.qualification =
      match s.time.spacing t with
      | .tooClose => s.time.qualification
      | .wellSpaced => min 25 (s.time.qualification + 1)
      | .accepted => 1 := by
  unfold State.framePulse
  cases s.time.spacing t with
  | tooClose => rfl
  | wellSpaced => exact s.acceptPulse_qualification t true
  | accepted => exact s.acceptPulse_qualification t false

theorem State.framePulse_ref_of_locked {s : State} (h : s.time.ref = .locked) (t : Instant) :
    (s.framePulse t).time.ref = .locked := by
  unfold State.framePulse
  split
  · exact h
  · exact State.acceptPulse_ref_of_locked h t true
  · exact State.acceptPulse_ref_of_locked h t false

/-- A watchdog that has not run out before an instant has no effect there (R18). -/
theorem State.settleWatchdog_of_le {s : State} {t : Instant}
    (h : ∀ p : Instant, s.time.previous = some p → t ≤ p + 60000000) : s.settleWatchdog t = s := by
  unfold State.settleWatchdog TimeBase.watchdog
  cases hp : s.time.previous with
  | none => rfl
  | some p => exact if_neg (Nat.not_lt.mpr (h p hp))

/-- A missing pulse ends the run of well-spaced pulses in every reference state, its tick in LOCKED included (R19, R20). -/
theorem State.missPulse_qualification (s : State) (t : Instant) : (s.missPulse t).time.qualification = 0 := by
  unfold State.missPulse
  dsimp only
  split
  · simp [State.tick_time]
  · rfl

theorem exec_framePulse (t : Instant) (s : State) :
    exec (.framePulse t) s = when s.powered ((s.settleWatchdog t).framePulse t) s := rfl

theorem exec_missingPulse_of_previous {s : State} {p : Instant} (h : s.time.previous = some p) :
    exec .missingPulse s = when s.powered (s.missPulse (p + ms 60)) s := by
  change execMissingPulse s = _
  simp [execMissingPulse, TimeBase.watchdog, h]

/-- Settles O17: the rows of R18's table give the rows of R19, since the watchdog still runs when the pulse comes. -/
theorem qualificationCount : Obligations.QualificationCount := by
  intro s powered
  constructor
  · intro t inTime
    refine ⟨(s.framePulse t).refresh, ?_, ?_, fun locked => State.framePulse_ref_of_locked locked t⟩
    · rw [exec_framePulse, State.settleWatchdog_of_le inTime, when_next, powered, if_pos rfl]
    · rw [State.refresh_time, State.framePulse_qualification]
      cases hp : s.time.previous with
      | none => rw [TimeBase.spacing_of_none hp]
      | some p =>
        rw [TimeBase.spacing_of_previous hp]
        by_cases close : t - p < 38000000
        · simp only [if_pos close]
        · by_cases spaced : t - p ≤ 42000000
          · simp only [if_neg close, if_pos spaced]
          · simp only [if_neg close, if_neg spaced]
  · intro p running
    refine ⟨(s.missPulse (p + ms 60)).refresh, ?_, s.missPulse_qualification _⟩
    rw [exec_missingPulse_of_previous running, when_next, powered, if_pos rfl]

/-! ### TIME-SET (R23) -/

/-- A TIME-SET body is read exactly when it is four bytes (R23, R188). -/
theorem readTimeSet_eq (bs : Bytes) :
    readTimeSet bs = if bs.length = 4 then some (BitVec.ofNat 32 (unLe bs)) else none := by
  unfold readTimeSet takeWord takeNat takeBytes
  rcases Nat.lt_trichotomy bs.length 4 with short | four | long
  · rw [if_neg (Nat.not_le.mpr short), if_neg short.ne]
    rfl
  · rw [if_pos four.ge, if_pos four, List.take_of_length_le four.le, List.drop_of_length_le four.le]
    rfl
  · rw [if_pos long.le, if_neg long.ne']
    cases rest : bs.drop 4 with
    | nil => exact absurd (List.drop_eq_nil_iff.mp rest) (Nat.not_le.mpr long)
    | cons b more => rfl

/-- What the Time Base does with a TIME-SET from the time authority (R23). -/
theorem setTime_eq (l : Link) (r : Request) (s : State) :
    setTime l r s =
      if r.body.length = 4 then
        if s.time.pendingSet.isSome then s.answer l r .busy .none
        else s.modTime fun b =>
          { b with pendingSet := some { seconds := BitVec.ofNat 32 (unLe r.body), link := l, tag := r.tag } }
      else s.answer l r .badArg .none := by
  unfold setTime
  rw [readTimeSet_eq]
  by_cases four : r.body.length = 4
  · rw [if_pos four, if_pos four, withArgs]
  · rw [if_neg four, if_neg four, withArgs]

/-- TIME-SET at the head of its link's queue: RIGHTS for a link other than the time authority, else the Time Base's (R23, R163). -/
theorem exec_timeSet_of_serving {s : State} {l : Link} {r : Request} (h : Serving s l 6 r) :
    exec (.timeSet l) s =
      if l = s.settings.timeAuthority then .next (setTime l r (s.takeRequest l)).refresh
      else .next (s.answered l r .rights .none).refresh := by
  obtain ⟨waits, loaded, code⟩ := h
  change execTimeSet l s = _
  rw [execTimeSet, serve_of_waits _ _ _ waits]
  simp [loaded, code]

/-- Settles O22: the rows of R23 in their order of the right, the body and the set already pending. -/
theorem timeSetTaken : Obligations.TimeSetTaken := by
  refine ⟨rfl, fun s l r serving => ?_⟩
  rw [exec_timeSet_of_serving serving, setTime_eq, State.takeRequest_time]
  simp only [State.takeRequest_answer]
  refine ⟨fun other => if_neg other, fun authority => ?_⟩
  rw [if_pos authority]
  refine ⟨fun body => by rw [if_neg body], fun body => ?_⟩
  rw [if_pos body]
  constructor
  · intro pending
    rw [if_pos pending]
  · intro free
    rw [free]
    rfl

end Sys2Proof.Machine
end

section
/-! SEG-TAKE and SEG-END (chapter 3): what the Scheduler does with either request, row by row, and the statement on both. -/

namespace Sys2Proof.Machine

/-! ### The outlet a request carries (R188) -/

/-- One byte is an outlet exactly when it is below 8. -/
theorem readOutlet_singleton (b : Byte) : readOutlet [b] = if h : b.toNat < 8 then some ⟨b.toNat, h⟩ else none := by
  by_cases h : b.toNat < 8 <;> simp [readOutlet, takeOutlet, takeFin, takeNat, takeBytes, unLe, atEnd, h]

theorem readOutlet_of_ge {b : Byte} (h : 8 ≤ b.toNat) : readOutlet [b] = none := by
  rw [readOutlet_singleton, dif_neg (Nat.not_lt.mpr h)]

theorem outletByte_toNat (o : OutletId) : (outletByte o).toNat = o.val := by
  have small := o.isLt
  simp only [BitVec.toNat_ofNat]
  omega

theorem readOutlet_outletByte (o : OutletId) : readOutlet [outletByte o] = some o := by
  have small : (outletByte o).toNat < 8 := by rw [outletByte_toNat]; exact o.isLt
  rw [readOutlet_singleton, dif_pos small]
  exact congrArg some (Fin.ext (outletByte_toNat o))

/-! ### What taking a request leaves to the Scheduler -/

@[simp] theorem State.takeRequest_outlet (s : State) (l : Link) (o : OutletId) :
    (s.takeRequest l).outlet o = s.outlet o := rfl

/-- An outlet's Scheduler state changed between the taking of a request and its answer. -/
theorem State.takeRequest_modSched_answer (s : State) (l : Link) (o : OutletId) (f : Sched → Sched) (r : Request)
    (status : Status) (body : Body) :
    ((s.takeRequest l).modSched o f).answer l r status body = (s.modSched o f).answered l r status body := by
  cases l <;> rfl

/-- A change of an outlet's Scheduler state is settled by what it makes of the state that stands. -/
theorem State.modSched_congr {s : State} {o : OutletId} {f g : Sched → Sched}
    (h : f (s.outlet o).sched = g (s.outlet o).sched) : s.modSched o f = s.modSched o g := by
  unfold State.outlet at h
  unfold State.modSched State.modOutlet
  simp only [h]

/-- Arming the head of a queue leaves the rest of it, and no waiting trigger (R39). -/
theorem State.armHead_of_queue {s : State} {o : OutletId} {d : Declaration} {rest : List Declaration}
    (h : (s.outlet o).sched.queue = d :: rest) (boundary : BoundaryStamp) (cause : ArmCause) (late : Bool) :
    s.armHead o d boundary cause late =
      s.modSched o fun q =>
        { q with
          queue := rest
          waiting := none
          armed := some { decl := d, boundary := boundary, cause := cause, armStamp := s.time.air, lateStart := late } } :=
  State.modSched_congr (by simp [Sched.arm, h])

/-! ### SEG-TAKE (R36) -/

theorem takeSegment_of_misfit {r : Request} (misfit : readOutlet r.body = none) (l : Link) (s : State) :
    takeSegment l r s = s.answer l r .badArg .none := by
  rw [takeSegment, misfit, withArgs]

theorem takeSegment_of_armed {r : Request} {s : State} {o : OutletId} (fits : readOutlet r.body = some o)
    (occupied : (s.outlet o).sched.armed.isSome = true) (l : Link) :
    takeSegment l r s = s.answer l r .armed .none := by
  rw [takeSegment, fits, withArgs, if_pos occupied]

theorem takeSegment_of_empty {r : Request} {s : State} {o : OutletId} (fits : readOutlet r.body = some o)
    (free : (s.outlet o).sched.armed = none) (empty : (s.outlet o).sched.queue = []) (l : Link) :
    takeSegment l r s = s.answer l r .empty .none := by
  simp [takeSegment, fits, withArgs, free, State.head, empty]

theorem takeSegment_of_head {r : Request} {s : State} {o : OutletId} {d : Declaration} {rest : List Declaration}
    (fits : readOutlet r.body = some o) (free : (s.outlet o).sched.armed = none)
    (queued : (s.outlet o).sched.queue = d :: rest) (l : Link) :
    takeSegment l r s =
      (s.armHead o d (.stamp (s.delayed o s.time.air)) .take false).answer l r .ok
        (.segTake d.id (s.delayed o s.time.air)) := by
  simp [takeSegment, fits, withArgs, free, State.head, queued]

/-- SEG-TAKE at the head of the automation link's queue is the Scheduler's (R163). -/
theorem exec_segTake_of_serving {s : State} {r : Request} (serving : Serving s .automation 3 r) :
    exec (.segTake .automation) s = .next (takeSegment .automation r (s.takeRequest .automation)).refresh :=
  serve_of_serving (takeSegment .automation) serving

/-! ### SEG-END (R37) -/

theorem endSegment_of_misfit {r : Request} (misfit : readOutlet r.body = none) (l : Link) (s : State) :
    endSegment l r s = s.answer l r .badArg .none := by
  rw [endSegment, misfit, withArgs]

theorem endSegment_of_armed {r : Request} {s : State} {o : OutletId} (fits : readOutlet r.body = some o)
    (occupied : (s.outlet o).sched.armed.isSome = true) (l : Link) :
    endSegment l r s = s.answer l r .armed .none := by
  rw [endSegment, fits, withArgs, if_pos occupied]

/-- With the slot empty SEG-END fills it, whatever the queue holds (R37). -/
theorem endSegment_of_free {r : Request} {s : State} {o : OutletId} (fits : readOutlet r.body = some o)
    (free : (s.outlet o).sched.armed = none) (l : Link) :
    endSegment l r s =
      (s.modSched o fun q => { q with armed := some (s.endArmed (s.delayed o s.time.air)) }).answer l r .ok
        (.segEnd (s.delayed o s.time.air)) := by
  simp [endSegment, fits, withArgs, free]

/-- SEG-END at the head of the automation link's queue is the Scheduler's (R163). -/
theorem exec_segEnd_of_serving {s : State} {r : Request} (serving : Serving s .automation 4 r) :
    exec (.segEnd .automation) s = .next (endSegment .automation r (s.takeRequest .automation)).refresh :=
  serve_of_serving (endSegment .automation) serving

/-! ### Both requests -/

/-- Settles O27: each row is the Scheduler's row on the state whose request has been taken, which differs in its link alone. -/
theorem segTakeAndEnd : Obligations.SegTakeAndEnd := by
  constructor
  · intro s r b body above
    have misfit : readOutlet r.body = none := by rw [body, readOutlet_of_ge above]
    constructor
    · intro serving
      rw [exec_segTake_of_serving serving, takeSegment_of_misfit misfit, State.takeRequest_answer]
    · intro serving
      rw [exec_segEnd_of_serving serving, endSegment_of_misfit misfit, State.takeRequest_answer]
  · intro s r o body
    have fits : readOutlet r.body = some o := by rw [body, readOutlet_outletByte]
    constructor
    · intro serving
      rw [exec_segTake_of_serving serving]
      refine ⟨fun occupied => ?_, fun free empty => ?_, fun d rest free queued => ?_⟩
      · rw [takeSegment_of_armed fits (by simpa using occupied), State.takeRequest_answer]
      · rw [takeSegment_of_empty fits (by simpa using free) (by simpa using empty), State.takeRequest_answer]
      · have stands : ((s.takeRequest .automation).outlet o).sched.queue = d :: rest := by simpa using queued
        rw [takeSegment_of_head fits (by simpa using free) stands, State.armHead_of_queue stands,
          State.takeRequest_modSched_answer]
        rfl
    · intro serving
      rw [exec_segEnd_of_serving serving]
      refine ⟨fun occupied => ?_, fun free => ?_⟩
      · rw [endSegment_of_armed fits (by simpa using occupied), State.takeRequest_answer]
      · rw [endSegment_of_free fits (by simpa using free), State.takeRequest_modSched_answer]
        rfl

end Sys2Proof.Machine
end

section
/-! The evidence sequence (chapter 9): a record lost at a full FIFO, the Evidence Unit at power-on, and the statement on the sequence. -/

namespace Sys2Proof.Machine

/-- A record lost at a full FIFO uses up its sequence all the same; the mark is set and the loss counted (R148, R150). -/
theorem Evidence.create_full {e : Evidence} (full : 64 ≤ e.fifo.length) (d : Draft) :
    e.create d = { e with sequence := e.sequence + 1, lossPending := true, lost := min 4294967295 (e.lost + 1) } :=
  if_neg (Nat.not_lt.mpr full)

theorem exec_powerOn (t : Instant) (s : State) : exec (.powerOn t) s = .next (s.powerOnAt t).refresh := rfl

@[simp] theorem State.powerOnAt_sequence (s : State) (t : Instant) : (s.powerOnAt t).evidence.sequence = 0 := rfl

/-- Settles O45: a creation moves the counter on whether the FIFO has room or not, and power-on sets it to 0. -/
theorem evidenceSequence : Obligations.EvidenceSequence := by
  constructor
  · intro s d
    obtain ⟨sequence, head, tail, -, -, -⟩ := s.evidence.create_spec d
    refine ⟨sequence, fun room => ?_, fun full => ?_, head, tail, rfl⟩
    · simp [Evidence.create_room room]
    · simp [Evidence.create_full full]
  · intro s t
    refine ⟨_, exec_powerOn t s, ?_⟩
    rw [State.refresh_evidence, State.powerOnAt_sequence]

end Sys2Proof.Machine
end

section
/-! What the blocks' work on a frame may change, said once for each operation: which parts of which outlets, and beside them only the
holds, the evidence and the flags, to which it adds (R14, R104, R147, R169). -/

namespace Sys2Proof.Machine

/-! ### Parts of an outlet -/

/-- The six blocks that keep a part of an outlet. -/
inductive Part where
  | intake
  | sched
  | loud
  | subs
  | verdict
  | writer

/-- Is this part of an outlet the same in two states of it? -/
def Part.same (x : Part) (a b : Outlet) : Prop :=
  match x with
  | .intake => b.intake = a.intake
  | .sched => b.sched = a.sched
  | .loud => b.loud = a.loud
  | .subs => b.subs = a.subs
  | .verdict => b.verdict = a.verdict
  | .writer => b.writer = a.writer

theorem Part.same_refl (x : Part) (a : Outlet) : x.same a a := by
  cases x <;> rfl

theorem Part.same_trans {x : Part} {a b c : Outlet} (h : x.same a b) (k : x.same b c) : x.same a c := by
  cases x <;> exact Eq.trans k h

/-- An outlet all of whose parts are the same is the same. -/
theorem Outlet.eq_of_same {a b : Outlet} (h : ∀ x : Part, x.same a b) : b = a := by
  have intake : b.intake = a.intake := h .intake
  have sched : b.sched = a.sched := h .sched
  have loud : b.loud = a.loud := h .loud
  have subs : b.subs = a.subs := h .subs
  have verdict : b.verdict = a.verdict := h .verdict
  have writer : b.writer = a.writer := h .writer
  cases a
  cases b
  simp_all

/-! ### The relation -/

/-- Two states that differ at most in the parts of outlets that `R` allows and in what grows: holds at the end of the table and in the
hold counts of pages, records behind the evidence, flags, and the count of free values. -/
structure Spreads (R : OutletId → Part → Prop) (s t : State) : Prop where
  frame : { t with outlets := s.outlets, directory := s.directory, holds := s.holds, holdCounter := s.holdCounter,
                   evidence := s.evidence, links := s.links, free := s.free } = s
  outlets : ∀ (o : OutletId) (x : Part), ¬R o x → x.same (s.outlet o) (t.outlet o)
  links : ∀ l : Link, { t.link l with flags := (s.link l).flags } = s.link l
  flags : ∀ (l : Link) (x : Flag), (s.link l).flags.has x = true → (t.link l).flags.has x = true
  pages : ∀ n : Nat, { pageAt t.directory n with holdCount := (pageAt s.directory n).holdCount } = pageAt s.directory n
  counts : ∀ n : Nat, (pageAt s.directory n).holdCount ≤ (pageAt t.directory n).holdCount
  canonical : directoryWf s.directory = true → directoryWf t.directory = true
  holds : ∃ more : List Hold, t.holds = s.holds ++ more
  room : s.holds.length ≤ 32 → t.holds.length ≤ 32
  records : ∃ ds : List Draft, t.evidence = ds.foldl Evidence.create s.evidence

section
variable {R : OutletId → Part → Prop}

theorem Spreads.refl (s : State) : Spreads R s s :=
  ⟨rfl, fun _ x _ => x.same_refl _, fun _ => rfl, fun _ _ h => h, fun _ => rfl, fun _ => Nat.le_refl _, id,
    ⟨[], (List.append_nil _).symm⟩, id, [], rfl⟩

theorem Spreads.trans {s t u : State} (h : Spreads R s t) (k : Spreads R t u) : Spreads R s u := by
  obtain ⟨hm, hm'⟩ := h.holds
  obtain ⟨km, km'⟩ := k.holds
  obtain ⟨hd, hd'⟩ := h.records
  obtain ⟨kd, kd'⟩ := k.records
  refine ⟨?_, fun o x free => Part.same_trans (h.outlets o x free) (k.outlets o x free), fun l => ?_,
    fun l x hx => k.flags l x (h.flags l x hx), fun n => ?_, fun n => (h.counts n).trans (k.counts n),
    fun wf => k.canonical (h.canonical wf), ⟨hm ++ km, by rw [km', hm', List.append_assoc]⟩, fun r => k.room (h.room r),
    hd ++ kd, by rw [kd', hd', List.foldl_append]⟩
  · have step := congrArg (fun v : State =>
      { v with outlets := s.outlets, directory := s.directory, holds := s.holds, holdCounter := s.holdCounter,
               evidence := s.evidence, links := s.links, free := s.free }) k.frame
    exact step.trans h.frame
  · have step := congrArg (fun p : LinkPort => { p with flags := (s.link l).flags }) (k.links l)
    exact step.trans (h.links l)
  · have step := congrArg (fun e : PageEntry => { e with holdCount := (pageAt s.directory n).holdCount }) (k.pages n)
    exact step.trans (h.pages n)

/-! ### What the relation leaves as it was -/

theorem Spreads.time {s t : State} (h : Spreads R s t) : t.time = s.time := (congrArg State.time h.frame :)

theorem Spreads.settings {s t : State} (h : Spreads R s t) : t.settings = s.settings := (congrArg State.settings h.frame :)

theorem Spreads.profiles {s t : State} (h : Spreads R s t) : t.profiles = s.profiles := (congrArg State.profiles h.frame :)

/-- A part of an outlet that the relation does not allow to change. -/
theorem Spreads.sched {s t : State} (h : Spreads R s t) {o : OutletId} (free : ¬R o .sched) : (t.outlet o).sched = (s.outlet o).sched :=
  h.outlets o .sched free

theorem Spreads.intake {s t : State} (h : Spreads R s t) {o : OutletId} (free : ¬R o .intake) :
    (t.outlet o).intake = (s.outlet o).intake :=
  h.outlets o .intake free

theorem Spreads.loud {s t : State} (h : Spreads R s t) {o : OutletId} (free : ¬R o .loud) : (t.outlet o).loud = (s.outlet o).loud :=
  h.outlets o .loud free

theorem Spreads.subs {s t : State} (h : Spreads R s t) {o : OutletId} (free : ¬R o .subs) : (t.outlet o).subs = (s.outlet o).subs :=
  h.outlets o .subs free

theorem Spreads.verdict {s t : State} (h : Spreads R s t) {o : OutletId} (free : ¬R o .verdict) :
    (t.outlet o).verdict = (s.outlet o).verdict :=
  h.outlets o .verdict free

theorem Spreads.writer {s t : State} (h : Spreads R s t) {o : OutletId} (free : ¬R o .writer) :
    (t.outlet o).writer = (s.outlet o).writer :=
  h.outlets o .writer free

/-- The evidence only grows at the FIFO's end, and its ring stands still. -/
theorem Spreads.fifo {s t : State} (h : Spreads R s t) : ∃ more : List EvidenceRecord, t.evidence.fifo = s.evidence.fifo ++ more := by
  obtain ⟨ds, h⟩ := h.records
  obtain ⟨more, k⟩ := s.createAll_fifo ds
  exact ⟨more, by rw [h, ← State.createAll_evidence, k]⟩

/-! ### Single updates -/

theorem Spreads.modOutlet (s : State) {o : OutletId} {f : Outlet → Outlet}
    (h : ∀ x : Part, ¬R o x → x.same (s.outlet o) (f (s.outlet o))) : Spreads R s (s.modOutlet o f) := by
  refine ⟨rfl, fun p x free => ?_, fun _ => rfl, fun _ _ h => h, fun _ => rfl, fun _ => Nat.le_refl _, id,
    ⟨[], (List.append_nil _).symm⟩, id, [], rfl⟩
  by_cases here : p = o
  · subst here
    rw [State.outlet_modOutlet_same]
    exact h x free
  · rw [State.outlet_modOutlet_of_ne s here]
    exact x.same_refl _

theorem Spreads.modIntake (s : State) {o : OutletId} (h : R o .intake) (f : Intake → Intake) : Spreads R s (s.modIntake o f) :=
  .modOutlet s fun x free => by cases x <;> first | rfl | exact absurd h free

theorem Spreads.modSched (s : State) {o : OutletId} (h : R o .sched) (f : Sched → Sched) : Spreads R s (s.modSched o f) :=
  .modOutlet s fun x free => by cases x <;> first | rfl | exact absurd h free

theorem Spreads.modLoud (s : State) {o : OutletId} (h : R o .loud) (f : Loud → Loud) : Spreads R s (s.modLoud o f) :=
  .modOutlet s fun x free => by cases x <;> first | rfl | exact absurd h free

theorem Spreads.modSubs (s : State) {o : OutletId} (h : R o .subs) (f : Subs → Subs) : Spreads R s (s.modSubs o f) :=
  .modOutlet s fun x free => by cases x <;> first | rfl | exact absurd h free

theorem Spreads.modVerdict (s : State) {o : OutletId} (h : R o .verdict) (f : VerdictUnit → VerdictUnit) :
    Spreads R s (s.modVerdict o f) :=
  .modOutlet s fun x free => by cases x <;> first | rfl | exact absurd h free

theorem Spreads.modWriter (s : State) {o : OutletId} (h : R o .writer) (f : Writer → Writer) : Spreads R s (s.modWriter o f) :=
  .modOutlet s fun x free => by cases x <;> first | rfl | exact absurd h free

theorem Spreads.useFree (s : State) (k : Nat) : Spreads R s (s.useFree k) :=
  ⟨rfl, fun _ x _ => x.same_refl _, fun _ => rfl, fun _ _ h => h, fun _ => rfl, fun _ => Nat.le_refl _, id,
    ⟨[], (List.append_nil _).symm⟩, id, [], rfl⟩

theorem Spreads.create (s : State) (d : Draft) : Spreads R s (s.create d) :=
  ⟨rfl, fun _ x _ => x.same_refl _, fun _ => rfl, fun _ _ h => h, fun _ => rfl, fun _ => Nat.le_refl _, id,
    ⟨[], (List.append_nil _).symm⟩, id, [d], rfl⟩

theorem Spreads.createAll (s : State) (ds : List Draft) : Spreads R s (s.createAll ds) := by
  induction ds generalizing s with
  | nil => exact .refl s
  | cons d ds ih => exact (Spreads.create s d).trans (ih _)

theorem Spreads.createAnyOrder (s : State) (ds : List Draft) : Spreads R s (s.createAnyOrder ds) :=
  (Spreads.createAll s _).trans (.useFree _ 1)

theorem Spreads.raiseBoth (s : State) (x : Flag) : Spreads R s (s.raiseBoth x) := by
  refine ⟨rfl, fun _ x _ => x.same_refl _, fun l => ?_, fun l y h => ?_, fun _ => rfl, fun _ => Nat.le_refl _, id,
    ⟨[], (List.append_nil _).symm⟩, id, [], rfl⟩
  · cases l <;> rfl
  · have raised : ((s.raiseBoth x).link l).flags = (s.link l).flags.add x := by cases l <;> rfl
    rw [raised, FlagSet.has_add, h]
    rfl

/-- A page's hold count raised. -/
theorem Spreads.modPage (s : State) (p : Nat) (f : PageEntry → PageEntry)
    (same : ∀ e : PageEntry, { f e with holdCount := e.holdCount } = e) (more : ∀ e : PageEntry, e.holdCount ≤ (f e).holdCount) :
    Spreads R s (s.modPage p f) := by
  refine ⟨rfl, fun _ x _ => x.same_refl _, fun _ => rfl, fun _ _ h => h, fun n => ?_, fun n => ?_,
    fun wf => directoryWf_setPage wf _ _, ⟨[], (List.append_nil _).symm⟩, id, [], rfl⟩
  · rw [State.pageAt_modPage]
    split
    · rename_i here
      rw [here]
      exact same _
    · rfl
  · rw [State.pageAt_modPage]
    split
    · rename_i here
      rw [here]
      exact more _
    · exact Nat.le_refl _

theorem Spreads.foldl {α : Type} {f : State → α → State} (xs : List α) (h : ∀ u : State, ∀ a ∈ xs, Spreads R u (f u a)) (s : State) :
    Spreads R s (xs.foldl f s) := by
  induction xs generalizing s with
  | nil => exact .refl s
  | cons x xs ih =>
    exact (h s x List.mem_cons_self).trans (ih (fun u a ha => h u a (List.mem_cons_of_mem _ ha)) _)

theorem Spreads.eachDraft (s : State) {f : State → OutletId → State × List Draft} (h : ∀ u o, Spreads R u (f u o).1) :
    Spreads R s (s.eachDraft f).1 := by
  have each : ∀ (os : List OutletId) (p : State × List Draft), Spreads R s p.1 →
      Spreads R s (os.foldl (fun p o => ((f p.1 o).1, p.2 ++ (f p.1 o).2)) p).1 := by
    intro os
    induction os with
    | nil => exact fun _ h => h
    | cons o os ih => exact fun p hp => ih _ (hp.trans (h _ _))
  exact each _ _ (.refl s)

/-! ### Holds (R139, R144) -/

theorem Spreads.enterHold (s : State) (h : Hold) (range : List (Nat × PageEntry)) (room : s.holds.length < 32) :
    Spreads R s (s.enterHold h range) := by
  have counted : Spreads R s (s.modPages (range.map (·.1)) fun e => { e with holdCount := e.holdCount + 1 }) :=
    Spreads.foldl (f := fun s p => s.modPage p fun e => { e with holdCount := e.holdCount + 1 }) _
      (fun u p _ => .modPage u p _ (fun _ => rfl) fun _ => Nat.le_succ _) s
  have holds : (s.modPages (range.map (·.1)) fun e => { e with holdCount := e.holdCount + 1 }).holds = s.holds := by
    have same : ∀ (ps : List Nat) (f : PageEntry → PageEntry) (u : State), (u.modPages ps f).holds = u.holds := by
      intro ps f
      induction ps with
      | nil => exact fun _ => rfl
      | cons p ps ih => exact fun u => ih (u.modPage p f)
    exact same _ _ s
  refine counted.trans (Spreads.trans ?_ (.create _ _))
  refine ⟨rfl, fun _ x _ => x.same_refl _, fun _ => rfl, fun _ _ h => h, fun _ => rfl, fun _ => Nat.le_refl _, id,
    ⟨[h], rfl⟩, fun _ => ?_, [], rfl⟩
  rw [List.length_append, holds]
  exact room

theorem Spreads.place (s : State) (origin : HoldOrigin) (o : OutletId) (first last : AirTime) :
    Spreads R s (s.place origin o first last).1 := by
  unfold State.place
  split
  · exact .refl s
  · rename_i room
    dsimp only
    split
    · exact .refl s
    · exact .enterHold s _ _ (Nat.not_le.mp room)

/-! ### The Verdict Unit (chapter 6) -/

theorem Spreads.setBreach (s : State) {o : OutletId} (h : R o .verdict) (f : VerdictUnit → VerdictUnit) :
    Spreads R s (s.setBreach o f) := by
  unfold State.setBreach
  dsimp only
  split
  · exact (Spreads.modVerdict s h _).trans (.raiseBoth _ _)
  · exact .modVerdict s h _

theorem Spreads.excursion (s : State) {o : OutletId} (h : R o .verdict) (c : Current) (l : Int) (stamp : AirTime) :
    Spreads R s (s.excursion o c l stamp) := by
  unfold State.excursion
  exact (Spreads.create s _).trans (.modVerdict _ h _)

theorem Spreads.countExcursion (s : State) {o : OutletId} (h : R o .verdict) (l : Int) (stamp : AirTime) :
    Spreads R s (s.countExcursion o l stamp) := by
  unfold State.countExcursion
  split
  · split
    · exact .refl s
    · split
      · exact .excursion s h _ _ _
      · exact .modVerdict s h _
  · exact .refl s

theorem Spreads.autoHold (s : State) (wanted : Bool) (origin : HoldOrigin) (o : OutletId) (a b : AirTime) :
    Spreads R s (s.autoHold wanted origin o a b).1 := by
  unfold State.autoHold
  split
  · exact .place s _ _ _ _
  · exact .refl s

theorem Spreads.deliver (s : State) (o : OutletId) (stamp : AirTime) (body : EvidenceBody) :
    Spreads R s (s.deliver o stamp body) :=
  (Spreads.create s _).trans (.raiseBoth _ _)

theorem Spreads.judgeSegment (s : State) {o : OutletId} (h : R o .verdict) (c : ClosedSegment) (peak : Int) :
    Spreads R s (s.judgeSegment o c peak) := by
  unfold State.judgeSegment
  exact (((Spreads.useFree s 2).trans (.autoHold _ _ _ _ _ _)).trans (.deliver _ _ _ _)).trans (.modVerdict _ h _)

theorem Spreads.judgeBreak (s : State) {o : OutletId} (h : R o .verdict) (c : ClosedBreak) : Spreads R s (s.judgeBreak o c) := by
  unfold State.judgeBreak
  exact (((Spreads.useFree s 2).trans (.autoHold _ _ _ _ _ _)).trans (.deliver _ _ _ _)).trans (.modVerdict _ h _)

/-- The outlet of a closing slot. -/
def SlotRef.outlet : SlotRef → OutletId
  | .segment o => o
  | .brk o => o

theorem Spreads.formVerdict (s : State) (r : SlotRef) (h : R r.outlet .verdict) : Spreads R s (s.formVerdict r) := by
  cases r with
  | segment o =>
    unfold State.formVerdict
    dsimp only
    split
    · split
      · exact .judgeSegment s h _ _
      · exact .refl s
    · exact .refl s
  | brk o =>
    unfold State.formVerdict
    dsimp only
    split
    · split
      · exact .judgeBreak s h _
      · exact .refl s
    · exact .refl s

theorem State.outlet_of_readySlots {s : State} {o : OutletId} {r : SlotRef} (h : r ∈ s.readySlots o) : r.outlet = o := by
  unfold State.readySlots at h
  rcases List.mem_append.mp h with h | h <;> split at h <;> simp at h <;> rw [h] <;> rfl

theorem Spreads.formVerdicts (s : State) (os : List OutletId) (h : ∀ o ∈ os, R o .verdict) : Spreads R s (s.formVerdicts os) := by
  refine (Spreads.useFree s 1).trans (.foldl _ (fun u r hr => .formVerdict u r ?_) _)
  rw [State.mem_shuffled, List.mem_flatMap] at hr
  obtain ⟨o, ho, hr⟩ := hr
  rw [State.outlet_of_readySlots hr]
  exact h o ho

/-! ### The Loudness Engine (chapter 4) -/

theorem Spreads.gatingBlock (s : State) {o : OutletId} (hl : R o .loud) (hv : R o .verdict) (l : Int) (stamp : AirTime) :
    Spreads R s (s.gatingBlock o l stamp) :=
  (Spreads.modLoud s hl _).trans (.countExcursion _ hv _ _)

theorem Spreads.completeSubBlock (s : State) {o : OutletId} (hl : R o .loud) : Spreads R s (s.completeSubBlock o) :=
  (Spreads.modLoud s hl _).trans (.useFree _ 2)

theorem Spreads.fullSubBlock (s : State) {o : OutletId} (hl : R o .loud) (hv : R o .verdict) (stamp : AirTime) :
    Spreads R s (s.fullSubBlock o stamp) := by
  unfold State.fullSubBlock
  dsimp only
  split
  · exact .completeSubBlock s hl
  · have told := fun (g : Loud → Loud) (v : Int) (n : Nat) => ((Spreads.completeSubBlock s hl).trans
      (.modLoud _ hl g)).trans (.setBreach _ hv fun w => { w with
        shortTermOver := ((s.completeSubBlock o).modLoud o g).shortTermBreach o v n })
    split
    · exact told _ _ _
    · exact (told _ _ _).trans ((Spreads.useFree _ 1).trans (.gatingBlock _ hl hv _ _))

theorem Spreads.shortSubBlock (s : State) {o : OutletId} (hl : R o .loud) (hv : R o .verdict) :
    Spreads R s (s.shortSubBlock o) := by
  unfold State.shortSubBlock
  split
  · exact .refl s
  · exact (Spreads.completeSubBlock s hl).trans (.setBreach _ hv _)

theorem Spreads.gatherFrame (s : State) {o : OutletId} (hl : R o .loud) (hv : R o .verdict) (stamp : AirTime)
    (xs : List (Six Int)) : Spreads R s (s.gatherFrame o stamp xs) := by
  unfold State.gatherFrame
  dsimp only
  split
  · exact .modLoud s hl _
  · exact ((Spreads.modLoud s hl _).trans (.fullSubBlock _ hl hv _)).trans (.modLoud _ hl _)

theorem Spreads.tapSamples (s : State) {o : OutletId} (hl : R o .loud) (xs : List (Six Int)) :
    Spreads R s (s.tapSamples o xs).1 :=
  (Spreads.modLoud s hl _).trans (.useFree _ 1)

theorem Spreads.enterPeak (s : State) {o : OutletId} (hl : R o .loud) (code : Int) : Spreads R s (s.enterPeak o code) :=
  .modLoud s hl _

theorem Outlet.enterFinal_same (t : Outlet) (c : ClosedSegment) (code : Int) {x : Part} (hl : x ≠ .loud) (hv : x ≠ .verdict) :
    x.same t (t.enterFinal c code) := by
  unfold Outlet.enterFinal
  dsimp only
  cases x with
  | loud => exact absurd rfl hl
  | verdict => exact absurd rfl hv
  | _ =>
    split
    · rfl
    · split <;> rfl

theorem Spreads.sendFinal (s : State) {o : OutletId} (hl : R o .loud) (hv : R o .verdict) (code : Int) :
    Spreads R s (s.sendFinal o code) := by
  unfold State.sendFinal
  split
  · exact .refl s
  · split
    · exact .refl s
    · refine .modOutlet s fun x free => Outlet.enterFinal_same _ _ _ ?_ ?_
      · rintro rfl
        exact free hl
      · rintro rfl
        exact free hv

theorem Spreads.finishPeaks (s : State) {o : OutletId} (hl : R o .loud) (hv : R o .verdict) : Spreads R s (s.finishPeaks o) := by
  unfold State.finishPeaks
  split
  · exact (Spreads.tapSamples s hl _).trans (.sendFinal _ hl hv _)
  · exact .refl s

theorem Spreads.measure (s : State) {o : OutletId} (hl : R o .loud) (hv : R o .verdict) (stamp : AirTime) (xs : List (Six Int)) :
    Spreads R s (s.measure o stamp xs) := by
  unfold State.measure
  dsimp only
  refine Spreads.trans ?_ (((Spreads.tapSamples _ hl _).trans (.enterPeak _ hl _)).trans (.gatherFrame _ hl hv _ _))
  split
  · exact ((Spreads.tapSamples s hl _).trans (.sendFinal _ hl hv _)).trans
      (.formVerdicts _ _ fun p hp => by rw [List.mem_singleton.mp hp]; exact hv)
  · exact .refl s

/-! ### The Subtitle Checker (chapter 5) -/

theorem Spreads.openGap (s : State) {o : OutletId} (hs : R o .subs) (hv : R o .verdict) (start : AirTime) (rfn : Option Rfn) :
    Spreads R s (s.openGap o start rfn) := by
  unfold State.openGap State.reportGap
  exact (Spreads.modSubs s hs _).trans (.setBreach _ hv _)

theorem Spreads.closeGap (s : State) {o : OutletId} (hs : R o .subs) (hv : R o .verdict) (cause : GapCause) (stop : AirTime) :
    Spreads R s (s.closeGap o cause stop) := by
  unfold State.closeGap
  split
  · exact (((Spreads.modSubs s hs _).trans (.create _ _)).trans (.setBreach _ hv _)).trans (.modSubs _ hs _)
  · exact .refl s

theorem Spreads.runTimer (s : State) {o : OutletId} (hs : R o .subs) (hv : R o .verdict) (start : AirTime) (rfn : Option Rfn) :
    Spreads R s (s.runTimer o start rfn) := by
  unfold State.runTimer
  split
  · split
    · exact .openGap s hs hv _ _
    · exact .modSubs s hs _
  · exact .refl s
  · exact .refl s

theorem Spreads.passGap (s : State) {o : OutletId} (hs : R o .subs) (hv : R o .verdict) (start : AirTime) (rfn : Option Rfn) :
    Spreads R s (s.passGap o start rfn) := by
  unfold State.passGap
  split
  · exact .modSubs s hs _
  · exact .runTimer s hs hv _ _

theorem Spreads.validUnit (s : State) {o : OutletId} (hs : R o .subs) (hv : R o .verdict) (stamp : AirTime) (k : UnitKind) :
    Spreads R s (s.validUnit o stamp k) :=
  (Spreads.closeGap s hs hv _ _).trans (.modSubs _ hs _)

theorem Spreads.takeSubUnit (s : State) {o : OutletId} (hs : R o .subs) (hv : R o .verdict) (c : Current) (stamp : AirTime)
    (u : SubUnit) : Spreads R s (s.takeSubUnit o c stamp u) := by
  unfold State.takeSubUnit
  split
  · exact .refl s
  · split
    · exact .refl s
    · split
      · exact .validUnit s hs hv _ _
      · exact .modSubs s hs _

theorem Spreads.checkSubtitles (s : State) {o : OutletId} (hs : R o .subs) (hv : R o .verdict) (stamp : AirTime) (rfn : Rfn)
    (units : List SubUnit) : Spreads R s (s.checkSubtitles o stamp rfn units) := by
  unfold State.checkSubtitles
  split
  · exact .refl s
  · exact (((Spreads.modSubs s hs _).trans (.foldl _ (fun u x _ => .takeSubUnit u hs hv _ _ x) _)).trans
      (.modSubs _ hs _)).trans (.passGap _ hs hv _ _)

/-! ### The Segment Scheduler (chapter 3) -/

theorem Spreads.armHead (s : State) {o : OutletId} (h : R o .sched) (d : Declaration) (boundary : BoundaryStamp) (cause : ArmCause)
    (late : Bool) : Spreads R s (s.armHead o d boundary cause late) := by
  unfold State.armHead
  exact .modSched s h _

theorem Spreads.setWaiting (s : State) {o : OutletId} (h : R o .sched) (w : Waiting) : Spreads R s (s.setWaiting o w) := by
  unfold State.setWaiting
  exact .modSched s h _

theorem Spreads.armTimed (s : State) {o : OutletId} (h : R o .sched) (d : Declaration) (start : AirTime) (cause : LateCause) :
    Spreads R s (s.armTimed o d start cause).1 :=
  .armHead s h _ _ _ _

theorem Spreads.testTimed (s : State) {o : OutletId} (h : R o .sched) (cause : LateCause) :
    Spreads R s (s.testTimed o cause).1 := by
  unfold State.testTimed
  split
  · exact .refl s
  · split
    · split
      · exact .refl s
      · split
        · exact .setWaiting s h _
        · exact .armTimed s h _ _ _
    · exact .refl s

theorem Spreads.testFollow (s : State) {o : OutletId} (h : R o .sched) : Spreads R s (s.testFollow o) := by
  unfold State.testFollow
  split
  · exact .refl s
  · split
    · split
      · exact .setWaiting s h _
      · exact .armHead s h _ _ _ _
    · exact .refl s

theorem Spreads.evaluate (s : State) {o : OutletId} (h : R o .sched) (cause : LateCause) : Spreads R s (s.evaluate o cause) := by
  unfold State.evaluate
  split
  · exact .refl s
  · split
    · exact .refl s
    · split
      · split
        · exact (Spreads.armTimed s h _ _ _).trans (.createAll _ _)
        · exact .refl s
      · split
        · exact .armHead s h _ _ _ _
        · exact .refl s
      · exact .refl s

theorem Spreads.slotEmptied (s : State) {o : OutletId} (h : R o .sched) : Spreads R s (s.slotEmptied o) := by
  unfold State.slotEmptied
  dsimp only
  split
  · exact (Spreads.raiseBoth s _).trans (.modSched _ h _)
  · exact (Spreads.evaluate s h _).trans (.modSched _ h _)

theorem Spreads.cueTrigger (s : State) {o : OutletId} (h : R o .sched) (k : CueLine) (stamp : AirTime) :
    Spreads R s (s.cueTrigger o k stamp) := by
  unfold State.cueTrigger
  split
  · exact .refl s
  · split
    · exact .armHead s h _ _ _ _
    · exact .refl s

theorem Spreads.closeSegment (s : State) {o : OutletId} (hc : R o .sched) (hl : R o .loud) (hs : R o .subs) (hv : R o .verdict)
    (close : CloseCause) (gap : GapCause) (stamp : AirTime) : Spreads R s (s.closeSegment o close gap stamp) := by
  unfold State.closeSegment
  split
  · exact .refl s
  · dsimp only
    refine Spreads.trans ?_ (.modOutlet _ fun x free => ?_)
    · split
      · exact (Spreads.shortSubBlock s hl hv).trans (.closeGap _ hs hv _ _)
      · exact .closeGap s hs hv _ _
    · cases x <;> first | rfl | exact absurd ‹_› free

theorem Spreads.closeBreak (s : State) {o : OutletId} (hc : R o .sched) (hl : R o .loud) (hv : R o .verdict) (cause : CloseCause)
    (stamp : AirTime) : Spreads R s (s.closeBreak o cause stamp) := by
  unfold State.closeBreak
  split
  · exact .refl s
  · refine .modOutlet s fun x free => ?_
    cases x <;> first | rfl | exact absurd ‹_› free

theorem Spreads.announce (s : State) {o : OutletId} (hc : R o .sched) (hl : R o .loud) (hs : R o .subs) (hv : R o .verdict)
    (d : Declaration) (late : Bool) (stamp : AirTime) (rfn : Rfn) : Spreads R s (s.announce o d late stamp rfn) := by
  unfold State.announce State.loadSubs State.loadExcursions State.clearShortTerm
  exact ((((Spreads.modSched s hc _).trans (.modLoud _ hl _)).trans (.modSubs _ hs _)).trans (.modVerdict _ hv _)).trans
    (.setBreach _ hv _)

theorem Spreads.stepBreak (s : State) {o : OutletId} (hc : R o .sched) (hl : R o .loud) (hv : R o .verdict) (stamp : AirTime) :
    Spreads R s (s.stepBreak o stamp) := by
  unfold State.stepBreak
  split
  · exact .refl s
  · split
    · split
      · exact (Spreads.modSched s hc _).trans (.modLoud _ hl _)
      · exact .refl s
    · split
      · exact .modSched s hc _
      · exact .closeBreak s hc hl hv _ _

theorem Spreads.countFrame (s : State) {o : OutletId} (hc : R o .sched) (a : Arrival) : Spreads R s (s.countFrame o a) :=
  .modSched s hc _

theorem Spreads.testOverrun (s : State) {o : OutletId} (hc : R o .sched) (stamp : AirTime) :
    Spreads R s (s.testOverrun o stamp) := by
  unfold State.testOverrun
  split
  · exact .refl s
  · dsimp only
    split
    · exact (Spreads.modSched s hc _).trans (.create _ _)
    · exact .refl s

theorem Spreads.enterSegment (s : State) {o : OutletId} (hc : R o .sched) (hl : R o .loud) (hs : R o .subs) (hv : R o .verdict)
    (m : Armed) (a : Arrival) : Spreads R s (s.enterSegment o m a) :=
  ((((Spreads.modSched s hc _).trans (.announce _ hc hl hs hv _ _ _ _)).trans (.stepBreak _ hc hl hv _)).trans
    (.countFrame _ hc _)).trans (.slotEmptied _ hc)

theorem Spreads.schedule (s : State) {o : OutletId} (hc : R o .sched) (hl : R o .loud) (hs : R o .subs) (hv : R o .verdict)
    (first : Bool) (a : Arrival) : Spreads R s (s.schedule o first a) := by
  unfold State.schedule
  dsimp only
  refine Spreads.trans ?_ (.testOverrun _ hc _)
  split
  · refine Spreads.trans ?_ (.enterSegment _ hc hl hs hv _ _)
    split
    · exact .refl s
    · exact .closeSegment s hc hl hs hv _ _ _
  · refine Spreads.trans ?_ ((Spreads.countFrame _ hc _).trans (.testFollow _ hc))
    split
    · exact (Spreads.announce s hc hl hs hv _ _ _ _).trans (.stepBreak _ hc hl hv _)
    · exact .refl s

/-! ### The Record Writers (chapter 7) -/

theorem Spreads.reportRecord (s : State) (o : OutletId) (stamp : AirTime) (body : EvidenceBody) :
    Spreads R s (s.reportRecord o stamp body) :=
  (Spreads.create s _).trans (.raiseBoth _ _)

theorem Spreads.reportDrops (s : State) {o : OutletId} (h : R o .writer) (stamp : AirTime) :
    Spreads R s (s.reportDrops o stamp) := by
  unfold State.reportDrops
  split
  · exact (Spreads.reportRecord s _ _ _).trans (.modWriter _ h _)
  · exact .refl s

theorem Spreads.enterFifo (s : State) {o : OutletId} (h : R o .writer) (r : FrameRecord) : Spreads R s (s.enterFifo o r) := by
  unfold State.enterFifo
  split
  · exact (Spreads.reportDrops s h _).trans (.modWriter _ h _)
  · exact .modWriter s h _

theorem Spreads.resume (s : State) {o : OutletId} (h : R o .writer) (r : FrameRecord) : Spreads R s (s.resume o r) := by
  unfold State.resume
  dsimp only
  refine Spreads.trans ?_ (.modWriter _ h _)
  split
  · exact .reportRecord s _ _ _
  · exact .refl s

theorem Spreads.record (s : State) {o : OutletId} (h : R o .writer) (r : FrameRecord) : Spreads R s (s.record o r) := by
  unfold State.record
  split
  · split
    · exact (Spreads.resume s h r).trans (.enterFifo _ h r)
    · exact .modWriter s h _
  · exact .enterFifo s h r

/-! ### An arrival (R10 to R14) -/

theorem Spreads.takeFrame (s : State) {o : OutletId} (hi : R o .intake) (hc : R o .sched) (hl : R o .loud) (hs : R o .subs)
    (hv : R o .verdict) (f : Treated) : Spreads R s (s.takeFrame o f) :=
  ((Spreads.modIntake s hi _).trans (.createAll _ _)).trans (.schedule _ hc hl hs hv _ _)

theorem Spreads.consume (s : State) (h : HandOff) (hl : R h.outlet .loud) (hs : R h.outlet .subs) (hv : R h.outlet .verdict)
    (hw : R h.outlet .writer) (c : Consumer) : Spreads R s (h.consume s c) := by
  cases c with
  | loudness => exact .measure s hl hv _ _
  | subtitles => exact .checkSubtitles s hs hv _ _ _
  | writer => exact .record s hw _

/-- The three consumers, in whatever order, keep to their own parts (R14). -/
theorem Spreads.consumers (s : State) (h : HandOff) (hl : R h.outlet .loud) (hs : R h.outlet .subs) (hv : R h.outlet .verdict)
    (hw : R h.outlet .writer) (order : List Consumer) : Spreads R s (order.foldl h.consume s) :=
  .foldl order (fun u c _ => .consume u h hl hs hv hw c) s

theorem Spreads.arrive (s : State) {o : OutletId} (h : ∀ x : Part, R o x) (f : Treated) (order : List Consumer) :
    Spreads R s (s.arrive o f order) :=
  (Spreads.takeFrame s (h _) (h _) (h _) (h _) (h _) f).trans (.consumers _ _ (h _) (h _) (h _) (h _) order)

/-! ### Frame ticks at the outlets, and the closes of a restart (R12, R13, R50, R54) -/

theorem Spreads.lostTick (s : State) {o : OutletId} (hi : R o .intake) (hc : R o .sched) (hs : R o .subs) (hv : R o .verdict) :
    Spreads R s (s.lostTick o) :=
  ((Spreads.modIntake s hi _).trans (.modSched _ hc _)).trans (.passGap _ hs hv _ _)

theorem Spreads.enterLost (s : State) {o : OutletId} (hi : R o .intake) : Spreads R s (s.enterLost o) := by
  unfold State.enterLost
  exact .modIntake s hi _

theorem Spreads.tickIntake (s : State) {o : OutletId} (hi : R o .intake) (hc : R o .sched) (hs : R o .subs) (hv : R o .verdict) :
    Spreads R s (s.tickIntake o).1 := by
  unfold State.tickIntake
  split
  · exact .refl s
  · exact .refl s
  · exact .lostTick s hi hc hs hv
  · dsimp only
    split
    · exact (Spreads.modIntake s hi _).trans (.enterLost _ hi)
    · exact .modIntake s hi fun i => { i with lossTimer := i.lossTimer + 1 }

theorem Spreads.stepOutlet (s : State) {o : OutletId} (hc : R o .sched) : Spreads R s (s.stepOutlet o).1 :=
  (Spreads.modSched s hc _).trans (.testTimed _ hc _)

theorem Spreads.closeOutlet (s : State) {o : OutletId} (hc : R o .sched) (hl : R o .loud) (hs : R o .subs) (hv : R o .verdict) :
    Spreads R s (s.closeOutlet o) :=
  ((Spreads.closeSegment s hc hl hs hv _ _ _).trans (.closeBreak _ hc hl hv _ _)).trans (.finishPeaks _ hl hv)

end

end Sys2Proof.Machine
end

section
/-! Requests that one block answers on what stands (chapters 2, 6, 7, 9, 10 and 11): each row is the owner's row on the state whose
request has been taken, which differs from the state before in that request alone. -/

namespace Sys2Proof.Machine

/-! ### Taking a request and answering it (R163, R165) -/

/-- Two effects that come to one state are one answer. -/
theorem next_refresh_congr {s t : State} (h : s = t) :
    (.next s.refresh : Host.Outcome State Fault Refusal) = .next t.refresh := by
  rw [h]

/-- Anything but the ports changed between the taking of a request and its answer may be changed before both. -/
theorem State.answer_of_links {s t : State} {l : Link} (h : t.links = (s.takeRequest l).links) (r : Request) (status : Status)
    (body : Body) : t.answer l r status body = { t with links := s.links }.answered l r status body := by
  cases t
  subst h
  cases l <;> rfl

/-- A port changed between the taking of its request and the answer may be changed before both, where the change reads and writes
nothing of what either does. -/
theorem State.takeRequest_modLink_answer (s : State) (l : Link) (f : LinkPort → LinkPort) (r : Request) (status : Status)
    (body : Body)
    (h : ∀ p : LinkPort, (f { p with requests := p.requests.tail }).respond r.tag r.code status body =
      (f p).answered r status body) :
    ((s.takeRequest l).modLink l f).answer l r status body = (s.modLink l f).answered l r status body := by
  unfold State.takeRequest State.answer State.respond State.answered
  rw [State.modLink_modLink, State.modLink_modLink]
  cases l <;> simp only [State.modLink, PerLink.modify, h]

@[simp] theorem State.takeRequest_deferred (s : State) (l m : Link) :
    ((s.takeRequest l).link m).deferred = (s.link m).deferred := by
  cases l <;> cases m <;> rfl

@[simp] theorem State.takeRequest_flags (s : State) (l m : Link) : ((s.takeRequest l).link m).flags = (s.link m).flags := by
  cases l <;> cases m <;> rfl

@[simp] theorem State.takeRequest_mask (s : State) (l m : Link) : ((s.takeRequest l).link m).mask = (s.link m).mask := by
  cases l <;> cases m <;> rfl

/-! ### Reading a body to its end (R188) -/

/-- A number read to the end of a body: the body is its bytes, and nothing else. -/
theorem atEnd_takeRange (n low high : Nat) (bs : Bytes) :
    atEnd (takeRange n low high bs) =
      if bs.length = n ∧ low ≤ unLe bs ∧ unLe bs ≤ high then some (unLe bs) else none := by
  unfold takeRange takeNat takeBytes
  rcases Nat.lt_trichotomy bs.length n with short | same | long
  · rw [if_neg (Nat.not_le.mpr short), if_neg (fun h => short.ne h.1)]
    rfl
  · rw [if_pos same.ge, List.take_of_length_le same.le, List.drop_of_length_le same.le]
    by_cases h : low ≤ unLe bs ∧ unLe bs ≤ high
    · simp [h, same, atEnd]
    · simp [h, same, atEnd]
  · rw [if_pos long.le, if_neg (fun h => long.ne' h.1)]
    cases rest : bs.drop n with
    | nil => exact absurd (List.drop_eq_nil_iff.mp rest) (Nat.not_le.mpr long)
    | cons b more =>
      by_cases h : low ≤ unLe (bs.take n) ∧ unLe (bs.take n) ≤ high <;> simp [h, atEnd]

theorem unLe_lt (bs : Bytes) : unLe bs < 256 ^ bs.length := by
  induction bs with
  | nil => simp [unLe]
  | cons b bs ih =>
    have hb := b.isLt
    simp only [unLe, List.length_cons, Nat.pow_succ]
    omega

/-! ### CUE-READ (R29) -/

/-- A CUE-READ body is read exactly when it is two bytes that name a line (R29). -/
theorem readCueRead_eq (bs : Bytes) :
    readCueRead bs = if bs.length = 2 ∧ unLe bs ≠ 0 then some (unLe bs) else none := by
  unfold readCueRead
  rw [atEnd_takeRange]
  refine if_congr (and_congr_right fun two => ?_) rfl rfl
  have bound := unLe_lt bs
  rw [two] at bound
  omega

@[simp] theorem State.setCue_cue_same (s : State) (k : CueLine) (c : CueRecord) : (s.setCue k c).cue k = c := by
  simp [State.setCue, State.cue]

theorem State.setCue_cue_of_ne (s : State) {j k : CueLine} (h : j ≠ k) (c : CueRecord) : (s.setCue k c).cue j = s.cue j := by
  have h' : k.val ≠ j.val := fun e => h (Fin.ext e.symm)
  simp [State.setCue, State.cue, Vector.getElem_set_ne, h']

theorem CueRecord.clear_clear (c : CueRecord) : c.clear.clear = c.clear := rfl

/-- Lines cleared one after another: each of them is cleared, no other is touched, and nothing else of the state is (R29). -/
theorem State.clearCues_spec (ks : List CueLine) (s : State) :
    ∃ cues : Vector CueRecord 16, ks.foldl (fun s k => s.setCue k (s.cue k).clear) s = { s with cues := cues } ∧
      ∀ j : CueLine, cues[j] = if j ∈ ks then (s.cue j).clear else s.cue j := by
  induction ks generalizing s with
  | nil => exact ⟨s.cues, rfl, fun j => by simp [State.cue]⟩
  | cons k ks ih =>
    obtain ⟨cues, frame, lines⟩ := ih (s.setCue k (s.cue k).clear)
    refine ⟨cues, frame, fun j => ?_⟩
    rw [lines j]
    by_cases here : j = k
    · subst here
      simp [CueRecord.clear_clear]
    · simp [State.setCue_cue_of_ne _ here, here]

theorem mem_linesOf (set : Nat) (k : CueLine) : k ∈ linesOf set ↔ set.testBit k.val = true := by
  simp [linesOf]

theorem exec_cueRead_of_serving {s : State} {l : Link} {r : Request} (serving : Serving s l 7 r) :
    exec (.cueRead l) s = .next (readCues l r (s.takeRequest l)).refresh :=
  serve_of_serving (readCues l) serving

/-- Settles O24: the lines named are cleared in turn, and a line's record does not depend on the others'. -/
theorem cueReadAnswered : Obligations.CueReadAnswered := by
  intro s l r serving
  rw [exec_cueRead_of_serving serving, readCues, readCueRead_eq]
  constructor
  · intro misfit
    rw [if_neg (by tauto), withArgs, State.takeRequest_answer]
  · intro two named
    rw [if_pos ⟨two, named⟩, withArgs]
    obtain ⟨cues, frame, lines⟩ := State.clearCues_spec (linesOf (unLe r.body)) (s.takeRequest l)
    refine ⟨cues, ?_, fun k => ?_⟩
    · dsimp only
      rw [frame]
      exact next_refresh_congr (State.answer_of_links (by rfl) ..)
    · exact (lines k).trans (if_congr (mem_linesOf _ k) rfl rfl)

/-! ### PROFILE-STAGE (R96) -/

theorem exec_profileStage_of_serving {s : State} {r : Request} (serving : Serving s .compliance 8 r) :
    exec (.profileStage .compliance) s = .next (stageProfile .compliance r (s.takeRequest .compliance)).refresh :=
  serve_of_serving (stageProfile .compliance) serving

/-- Settles O34: a target slot in use is answered BUSY, and any other takes the profile under the next version. -/
theorem profileStageTaken : Obligations.ProfileStageTaken := by
  intro s r serving
  rw [exec_profileStage_of_serving serving, stageProfile]
  refine ⟨fun misfit => by rw [misfit, withArgs, State.takeRequest_answer], fun p fits => ?_⟩
  rw [fits, withArgs]
  constructor
  · rintro ⟨v, target, used⟩
    refine next_refresh_congr ((if_pos ?_).trans (State.takeRequest_answer ..))
    change 0 < ((s.profiles.target.map fun v => s.references v.version).getD 0)
    rw [show s.profiles.target = some v from target]
    exact used
  · intro unused
    have unreferred : ¬((s.profiles.target.map fun v => s.references v.version).getD 0) > 0 := by
      cases target : s.profiles.target with
      | none => simp
      | some v => simp [unused v target]
    refine next_refresh_congr ((if_neg unreferred).trans ?_)
    refine (State.answer_of_links (by rfl) ..).trans ?_
    unfold ProfileStore.install
    cases latest : s.profiles.latestIsOne <;> simp [latest, State.createNow, State.create, ProfileStore.target, nextVersion, State.takeRequest, State.latestVersion] <;> rfl

/-! ### PAGE-READ (R127, R166) -/

theorem exec_pageRead_of_serving {s : State} {r : Request} (serving : Serving s .compliance 11 r) :
    exec (.pageRead .compliance) s = .next (readPage .compliance r (s.takeRequest .compliance)).refresh :=
  serve_of_serving (readPage .compliance) serving

@[simp] theorem State.takeRequest_findPage (s : State) (l : Link) (o : OutletId) (q : BitVec 32) :
    (s.takeRequest l).findPage o q = s.findPage o q := rfl

theorem PageEntry.inState_iff (e : PageEntry) (st : PageState) : e.inState st = true ↔ e.state = st := by
  simp [PageEntry.inState]

/-- Settles O39: the rows of R127 by the fill and the state of the page found, with R166's for a read that is deferred. -/
theorem pageReadTaken : Obligations.PageReadTaken := by
  intro s r serving
  rw [exec_pageRead_of_serving serving, readPage]
  refine ⟨fun misfit => by rw [misfit, withArgs, State.takeRequest_answer], fun a fits => ?_⟩
  simp only [fits, withArgs, State.takeRequest_findPage]
  refine ⟨fun lost => by rw [lost]; exact next_refresh_congr (State.takeRequest_answer ..), fun page e found => ?_⟩
  rw [found]
  simp only [readFound]
  refine ⟨fun whole => ?_, fun past shut some => ?_, fun none past shut => ?_, fun past opened running => ?_,
    fun past opened waits => ?_⟩
  · rw [if_pos whole]
    rfl
  · rw [if_neg (by omega), if_neg (by rwa [PageEntry.inState_iff]), if_pos some]
    rfl
  · rw [if_neg (by omega), if_neg (by rwa [PageEntry.inState_iff]), if_neg (by omega), State.takeRequest_answer]
  · rw [if_neg (by omega), if_pos (by rwa [PageEntry.inState_iff]), deferRead, if_neg (by simp [running])]
    simp only [State.takeRequest_deferred]
    refine ⟨fun room => by rw [if_neg (by omega)], fun full => by rw [if_pos full, State.takeRequest_answer]⟩
  · rw [if_neg (by omega), if_pos (by rwa [PageEntry.inState_iff]), deferRead, if_pos (by simpa using waits),
      State.takeRequest_answer]

/-! ### PAGE-RELEASE (R129) -/

theorem exec_pageRelease_of_serving {s : State} {r : Request} (serving : Serving s .compliance 12 r) :
    exec (.pageRelease .compliance) s = .next (releasePage .compliance r (s.takeRequest .compliance)).refresh :=
  serve_of_serving (releasePage .compliance) serving

/-- Settles O41: the rows of R129 by the state of the page found. -/
theorem pageReleaseTaken : Obligations.PageReleaseTaken := by
  intro s r serving
  rw [exec_pageRelease_of_serving serving, releasePage]
  refine ⟨fun misfit => by rw [misfit, withArgs, State.takeRequest_answer], fun o q fits => ?_⟩
  simp only [fits, withArgs, State.takeRequest_findPage]
  refine ⟨fun lost => by rw [lost]; exact next_refresh_congr (State.takeRequest_answer ..), fun n e found => ?_⟩
  rw [found]
  refine ⟨fun closed => ?_, fun released => ?_, fun opened => ?_⟩
  · let f : PageEntry → PageEntry := fun e => { e with state := .released }
    refine ⟨(s.modPage n f).directory, ?_, ?_, fun m other => ?_⟩
    · simp only [closed]
      exact next_refresh_congr (State.answer_of_links (by rfl) ..)
    · rw [State.pageAt_modPage, if_pos rfl]
    · rw [State.pageAt_modPage, if_neg other]
  · simp only [released, State.takeRequest_answer]
  · simp only [opened, State.takeRequest_answer]

/-! ### EVID-ACK (R158) -/

theorem exec_evidAck_of_serving {s : State} {r : Request} (serving : Serving s .compliance 17 r) :
    exec (.evidAck .compliance) s = .next (acknowledgeEvidence .compliance r (s.takeRequest .compliance)).refresh :=
  serve_of_serving (acknowledgeEvidence .compliance) serving

theorem Evidence.acknowledge_eq (e : Evidence) (n : Nat) :
    e.acknowledge n =
      if (e.cursor - e.tail).toNat < n then
        { e with tail := e.tail + BitVec.ofNat 32 n, cursor := e.tail + BitVec.ofNat 32 n,
                 skipped := min 4294967295 (e.skipped + (n - (e.cursor - e.tail).toNat)) }
      else { e with tail := e.tail + BitVec.ofNat 32 n } := rfl

/-- Whatever becomes of the cursor, an acknowledgement moves the tail alone among the fields it answers. -/
theorem Evidence.acknowledge_answered (e : Evidence) (n : Nat) :
    (e.acknowledge n).tail = e.tail + BitVec.ofNat 32 n ∧ (e.acknowledge n).head = e.head ∧ (e.acknowledge n).lost = e.lost := by
  rw [Evidence.acknowledge_eq]
  split <;> exact ⟨rfl, rfl, rfl⟩

/-- An expected tail that is none, or the tail, does not differ from it (R158). -/
theorem expected_agrees (expected : Option (BitVec 32)) (tail : BitVec 32) :
    (∀ x : BitVec 32, expected = some x → x = tail) →
      ¬(match expected with | some t => t != tail | none => false) = true := by
  cases expected with
  | none => simp
  | some x => exact fun same => by simp [same x rfl]

/-- Settles O50: an expected tail that differs is STALE before the count is looked at. -/
theorem evidAckTaken : Obligations.EvidAckTaken := by
  intro s r serving
  rw [exec_evidAck_of_serving serving, acknowledgeEvidence]
  refine ⟨fun misfit => by rw [misfit, withArgs, State.takeRequest_answer], fun n expected fits => ?_⟩
  rw [fits, withArgs]
  constructor
  · rintro ⟨x, rfl, other⟩
    exact next_refresh_congr ((if_pos (by simpa using other)).trans (State.takeRequest_answer ..))
  · intro same
    have agrees := expected_agrees expected s.evidence.tail same
    constructor
    · intro many
      exact next_refresh_congr ((if_neg agrees).trans ((if_pos many).trans (State.takeRequest_answer ..)))
    · intro enough
      refine next_refresh_congr ((if_neg agrees).trans ((if_neg (Nat.not_lt.mpr enough)).trans ?_))
      refine (State.answer_of_links (by rfl) ..).trans ?_
      obtain ⟨tail, head, lost⟩ := s.evidence.acknowledge_answered n
      simp only [State.takeRequest_evidence, Evidence.unacknowledged, tail, head, lost]
      rw [Evidence.acknowledge_eq]
      rfl

/-! ### FLAGS-CLEAR and MASK-SET (R170, R171) -/

theorem exec_flagsClear_of_serving {s : State} {l : Link} {r : Request} (serving : Serving s l 23 r) :
    exec (.flagsClear l) s = .next (clearFlags l r (s.takeRequest l)).refresh :=
  serve_of_serving (clearFlags l) serving

theorem exec_maskSet_of_serving {s : State} {l : Link} {r : Request} (serving : Serving s l 24 r) :
    exec (.maskSet l) s = .next (setMask l r (s.takeRequest l)).refresh :=
  serve_of_serving (setMask l) serving

/-- Settles O54: both requests change their own port alone, and answer what stood. -/
theorem flagsClearedMaskSet : Obligations.FlagsClearedMaskSet := by
  intro s l r
  constructor
  · intro x serving fits
    refine ⟨(s.link l).flags.minus x, fun y => FlagSet.has_minus _ _ y, ?_⟩
    rw [exec_flagsClear_of_serving serving, clearFlags, fits, withArgs, State.takeRequest_flags,
      State.takeRequest_modLink_answer _ _ _ _ _ _ fun p => rfl]
    cases l <;> rfl
  · intro m serving fits
    rw [exec_maskSet_of_serving serving, setMask, fits, withArgs, State.takeRequest_mask,
      State.takeRequest_modLink_answer _ _ _ _ _ _ fun p => rfl]

/-! ### SETTINGS-SAVE (R179) -/

theorem exec_settingsSave_of_serving {s : State} {r : Request} (serving : Serving s .compliance 18 r) :
    exec (.settingsSave .compliance) s = .next (saveSettings .compliance r (s.takeRequest .compliance)).refresh :=
  serve_of_serving (saveSettings .compliance) serving

theorem judgeImage_of_none {bytes : Bytes} (h : readImage bytes = none) : judgeImage bytes = .error .range := by
  rw [judgeImage, h]

theorem judgeImage_of_refused {bytes : Bytes} {g : Image} {x : ImageReason} (h : readImage bytes = some g)
    (refused : g.refusal = some x) : judgeImage bytes = .error x := by
  simp [judgeImage, h, refused]

theorem judgeImage_of_valid {bytes : Bytes} {g : Image} (h : readImage bytes = some g) (valid : g.refusal = none) :
    judgeImage bytes = .ok g := by
  simp [judgeImage, h, valid]

theorem exec_settingsSaveComplete_of_save {s : State} {v : Save} (powered : s.powered = true) (saving : s.save = some v) :
    exec .settingsSaveComplete s = .next (s.completeSave v).refresh := by
  change execSettingsSaveComplete s = _
  rw [execSettingsSaveComplete, saving]
  exact (when_next _ _ _).trans (by rw [powered, if_pos rfl])

/-- Settles O58: an image is judged first, then whether a save or a restart is in the way; the completion answers what tag is left. -/
theorem settingsSaved : Obligations.SettingsSaved := by
  constructor
  · intro s r serving
    rw [exec_settingsSave_of_serving serving, saveSettings]
    refine ⟨fun misfit => by rw [judgeImage_of_none misfit]; exact next_refresh_congr (State.takeRequest_answer ..),
      fun g fits => ?_⟩
    refine ⟨fun x refused => ?_, fun valid => ?_⟩
    · rw [judgeImage_of_refused fits refused]
      exact next_refresh_congr (State.takeRequest_answer ..)
    rw [judgeImage_of_valid fits valid]
    constructor
    · intro taken
      exact next_refresh_congr ((if_pos (by simpa using taken)).trans (State.takeRequest_answer ..))
    · intro unsaved running
      exact next_refresh_congr (if_neg (by simp [unsaved, running]))
  · intro s v powered saving
    rw [exec_settingsSaveComplete_of_save powered saving, State.completeSave]
    refine ⟨fun given => by rw [given], fun tag kept => by rw [kept]⟩

end Sys2Proof.Machine
end

section
/-! Messages and the checks of requests (chapter 10), and the requests that read or that fix a read (chapters 3, 4, 6 to 10). -/

namespace Sys2Proof.Machine

/-! ### The checks every request passes (R163) -/

@[simp] theorem withArgs_none {α : Type} (l : Link) (r : Request) (s : State) (f : α → State) :
    withArgs l r none s f = s.answer l r .badArg .none := rfl

@[simp] theorem withArgs_some {α : Type} (l : Link) (r : Request) (a : α) (s : State) (f : α → State) :
    withArgs l r (some a) s f = f a := rfl

/-- A body that is not read to operands is answered BAD_ARG. -/
theorem withArgs_of_isNone {α : Type} {args : Option α} (h : args.isSome = false) (l : Link) (r : Request) (s : State)
    (f : α → State) : withArgs l r args s f = s.answer l r .badArg .none := by
  cases args with
  | none => rfl
  | some a => cases h

theorem readNothing_isSome (bs : Bytes) : (readNothing bs).isSome = bs.isEmpty := by
  unfold readNothing
  cases bs <;> rfl

/-- The checks of R163 for a request of one code, in their order. -/
abbrev ChecksPass (s : State) (l : Link) (r : Request) (code : Byte) (x : Host.Outcome State Fault Refusal) : Prop :=
  (r.code ≠ code → x = .next s) ∧
    (r.code = code →
      (s.loading = true → code ≠ 25 → x = .next (s.answered l r .busy .none).refresh) ∧
      (s.loading = false →
        (mayMake s.settings.timeAuthority l code = false → x = .next (s.answered l r .rights .none).refresh) ∧
        (mayMake s.settings.timeAuthority l code = true → fitsCode l code r.body = false →
          x = .next (s.answered l r .badArg .none).refresh)))

/-- A request served passes the checks where its right is R163's and its owner refuses what does not fit. -/
theorem serve_checks {s : State} {l : Link} {r : Request} (waits : Waits s l r) (code : Byte) (allowed : Bool)
    (owner : Request → State → State) (right : mayMake s.settings.timeAuthority l code = allowed)
    (misfit : fitsCode l code r.body = false → ∀ u : State, owner r u = u.answer l r .badArg .none) :
    ChecksPass s l r code (serve l code allowed owner s) := by
  rw [serve_of_waits _ _ _ waits]
  refine ⟨fun other => if_pos other, fun same => ?_⟩
  rw [if_neg (not_not.mpr same), right]
  refine ⟨fun loading _ => if_pos loading, fun loaded => ?_⟩
  rw [if_neg (by simp [loaded])]
  refine ⟨fun barred => if_neg (by simp [barred]), fun may unfit => ?_⟩
  rw [if_pos may, misfit unfit, State.takeRequest_answer]

/-- LINK-RESET passes them in any phase, and every link may make it (R163, R173). -/
theorem execLinkReset_checks {s : State} {l : Link} {r : Request} (waits : Waits s l r) :
    ChecksPass s l r 25 (execLinkReset l s) := by
  unfold execLinkReset
  rw [State.nextRequest_of_waits waits]
  refine ⟨fun other => if_neg other, fun same => ⟨fun _ other => absurd rfl other, fun _ => ⟨fun barred => ?_, fun _ unfit => ?_⟩⟩⟩
  · simp [mayMake] at barred
  · simp only [if_pos same, done_eq]
    rw [resetRequest, withArgs_of_isNone (by rw [readNothing_isSome]; exact unfit), State.takeRequest_answer]

/-- Each command that carries out a request passes the checks of its code. -/
theorem exec_checks {s : State} {l : Link} {r : Request} (waits : Waits s l r) {i : Instr} {code : Byte}
    (h : requestOf i = some (l, code)) : ChecksPass s l r code (exec i s) := by
  have automation : (l == Link.automation) = decide (l = .automation) := by cases l <;> rfl
  have compliance : (l == Link.compliance) = decide (l = .compliance) := by cases l <;> rfl
  cases i <;> simp only [requestOf, Option.some.injEq, Prod.mk.injEq, reduceCtorEq] at h
  all_goals obtain ⟨rfl, rfl⟩ := h
  case segDeclare => exact serve_checks waits 1 _ _ automation fun h u => withArgs_of_isNone h ..
  case segWithdraw => exact serve_checks waits 2 _ _ automation fun h u => withArgs_of_isNone h ..
  case segTake => exact serve_checks waits 3 _ _ automation fun h u => withArgs_of_isNone h ..
  case segEnd => exact serve_checks waits 4 _ _ automation fun h u => withArgs_of_isNone h ..
  case segList => exact serve_checks waits 5 _ _ rfl fun h u => withArgs_of_isNone h ..
  case timeSet l =>
    refine serve_checks waits 6 _ _ ?_ fun h u => withArgs_of_isNone h ..
    cases l <;> cases s.settings.timeAuthority <;> rfl
  case cueRead => exact serve_checks waits 7 _ _ rfl fun h u => withArgs_of_isNone h ..
  case profileStage => exact serve_checks waits 8 _ _ compliance fun h u => withArgs_of_isNone h ..
  case profileRead =>
    exact serve_checks waits 9 _ _ rfl fun h u => withArgs_of_isNone ((readNothing_isSome _).trans h) ..
  case pageList => exact serve_checks waits 10 _ _ compliance fun h u => withArgs_of_isNone h ..
  case pageRead => exact serve_checks waits 11 _ _ compliance fun h u => withArgs_of_isNone h ..
  case pageRelease => exact serve_checks waits 12 _ _ compliance fun h u => withArgs_of_isNone h ..
  case holdPlace => exact serve_checks waits 13 _ _ compliance fun h u => withArgs_of_isNone h ..
  case holdRelease => exact serve_checks waits 14 _ _ compliance fun h u => withArgs_of_isNone h ..
  case holdList =>
    exact serve_checks waits 15 _ _ rfl fun h u => withArgs_of_isNone ((readNothing_isSome _).trans h) ..
  case evidRead => exact serve_checks waits 16 _ _ rfl fun h u => withArgs_of_isNone h ..
  case evidAck => exact serve_checks waits 17 _ _ compliance fun h u => withArgs_of_isNone h ..
  case settingsSave => exact serve_checks waits 18 _ _ compliance fun h => Bool.noConfusion h
  case restart => exact serve_checks waits 19 _ _ compliance fun h u => withArgs_of_isNone h ..
  case status =>
    exact serve_checks waits 20 _ _ rfl fun h u => withArgs_of_isNone ((readNothing_isSome _).trans h) ..
  case meterRead => exact serve_checks waits 21 _ _ rfl fun h u => withArgs_of_isNone h ..
  case flagsRead =>
    exact serve_checks waits 22 _ _ rfl fun h u => withArgs_of_isNone ((readNothing_isSome _).trans h) ..
  case flagsClear =>
    refine serve_checks waits 23 _ _ rfl fun h u => withArgs_of_isNone h ..
  case maskSet => exact serve_checks waits 24 _ _ rfl fun h u => withArgs_of_isNone h ..
  case linkReset => exact execLinkReset_checks waits

theorem namesRequest_iff (code : Byte) : namesRequest code = true ↔ 1 ≤ code.toNat ∧ code.toNat ≤ 25 := by
  simp [namesRequest]

theorem exec_unknownRequestCode_of_waits {s : State} {l : Link} {r : Request} (waits : Waits s l r) :
    exec (.unknownRequestCode l) s =
      if namesRequest r.code then .next s
      else .next (s.answered l r (if s.loading then .busy else .badArg) .none).refresh := by
  change execUnknownRequestCode l s = _
  rw [execUnknownRequestCode, State.nextRequest_of_waits waits]
  simp only [done_eq, idle_eq, State.takeRequest_answer]

/-- Settles O53: every request's command is served alike, but for its right and for what its body must fit. -/
theorem requestChecks : Obligations.RequestChecks := by
  intro s l r waits
  refine ⟨fun i code h => exec_checks waits h, fun named => ?_, fun unnamed => ?_⟩
  · rw [exec_unknownRequestCode_of_waits waits, if_pos ((namesRequest_iff _).mpr named)]
  · rw [exec_unknownRequestCode_of_waits waits, if_neg (fun h => unnamed ((namesRequest_iff _).mp h))]

/-! ### Messages (R161, R162) -/

theorem exec_messageReceived_of_powered {s : State} {l : Link} (powered : s.powered = true) (bytes : Bytes) :
    exec (.messageReceived l bytes) s = if (s.link l).resetLine then .next s else .next (s.receive l bytes).refresh := by
  refine (when_next _ _ _).trans ?_
  rw [powered]
  cases (s.link l).resetLine <;> rfl

theorem unLe_append (xs ys : Bytes) : unLe (xs ++ ys) = unLe xs + 256 ^ xs.length * unLe ys := by
  induction xs with
  | nil => simp [unLe]
  | cons x xs ih =>
    simp only [List.cons_append, unLe, ih, List.length_cons, Nat.pow_succ]
    ring

/-- A message whose check is good is what its header says (R161). -/
theorem readMessage_sealed (front : Bytes) : readMessage (front ++ le 2 (crc16 front).toNat) = readHeader front := by
  have good : unLe (le 2 (crc16 front).toNat) = (crc16 front).toNat := unLe_le (by have := (crc16 front).isLt; omega)
  unfold readMessage
  rw [if_neg (by simp)]
  simp [good]

theorem le_two (v : Nat) : le 2 v = [BitVec.ofNat 8 v, BitVec.ofNat 8 (v / 256)] := rfl

/-- A header of a request whose length field is its body's is a request (R187). -/
theorem readHeader_request (tag : Tag) (code status : Byte) {body : Bytes} (short : body.length ≤ 4352) :
    readHeader (1 :: tag :: code :: status :: (le 2 body.length ++ body)) = .request { tag := tag, code := code, body := body } := by
  have length : unLe (le 2 body.length) = body.length := unLe_le (by omega)
  rw [le_two] at length ⊢
  simp only [List.cons_append, List.nil_append, readHeader, length]
  rw [if_neg (by simp; omega), if_neg (by decide)]

/-- Settles O52: a message is judged on its bytes, then on its port; a link reads nothing under an asserted reset line. -/
theorem messageReceived : Obligations.MessageReceived := by
  refine ⟨fun s l bytes powered => ?_, fun tag code status body short => ?_, fun s l powered quiet => ?_⟩
  · rw [exec_messageReceived_of_powered powered]
    refine ⟨fun asserted => if_pos asserted, fun quiet => ?_⟩
    rw [if_neg (by simp [quiet]), State.receive]
    refine ⟨fun reason bad => by rw [bad]; rfl, fun r good => ?_⟩
    rw [good]
    simp only [State.accept]
    refine ⟨fun twice => by rw [if_pos twice]; rfl, fun once full => by rw [if_neg once, if_pos full]; rfl, fun once room => ?_⟩
    rw [if_neg once, if_neg (Nat.not_le.mpr room)]
  · exact (readMessage_sealed _).trans (readHeader_request tag code status short)
  · constructor
    · intro bytes
      refine (when_next _ _ _).trans ?_
      rw [powered, quiet]
      rfl
    · intro x rest sent
      refine (when_next _ _ _).trans ?_
      rw [powered, quiet, sent]
      refine next_refresh_congr ?_
      have tail : (s.link l).responses.tail = rest := by rw [sent]; rfl
      subst tail
      cases l <;> rfl

/-! ### EVID-READ (R155, R156) -/

theorem exec_evidRead_of_serving {s : State} {l : Link} {r : Request} (serving : Serving s l 16 r) :
    exec (.evidRead l) s = .next (readEvidence l r (s.takeRequest l)).refresh :=
  serve_of_serving (readEvidence l) serving

/-- Settles O48: each link's read is fixed by its own rule, and comes to a fetch or to an answer at once. -/
theorem evidReadTaken : Obligations.EvidReadTaken := by
  intro s l r serving
  have code : r.code = 16 := serving.2.2
  rw [exec_evidRead_of_serving serving, readEvidence]
  refine ⟨fun misfit => by rw [misfit, withArgs_none, State.takeRequest_answer], fun offset count fits => ?_⟩
  rw [fits, withArgs_some]
  constructor
  · rintro rfl
    refine ⟨fun some => ?_, fun none => ?_⟩
    · exact next_refresh_congr ((if_neg (by simp)).trans (if_neg (Nat.pos_iff_ne_zero.mp some)))
    · refine next_refresh_congr ((if_neg (by simp)).trans ((if_pos none).trans ?_))
      rw [State.answered]
      simp only [LinkPort.answered, code]
      rfl
  · rintro rfl
    refine ⟨fun ahead => ?_, fun here some => ?_, fun here none => ?_⟩
    · exact next_refresh_congr ((if_pos ⟨rfl, ahead⟩).trans (State.takeRequest_answer ..))
    · exact next_refresh_congr ((if_neg (by simp [here])).trans (if_neg (Nat.pos_iff_ne_zero.mp some)))
    · refine next_refresh_congr ((if_neg (by simp [here])).trans ((if_pos none).trans ?_))
      rw [State.answered]
      simp only [LinkPort.answered, code]
      rfl

/-! ### The requests that only read (R38, R75, R98, R126, R143, R170, R172) -/

/-- Pages are put in sequence order by the sequence counter alone (R115). -/
theorem State.inSequence_congr {s t : State} (h : t.pageSeq = s.pageSeq) : t.inSequence = s.inSequence := by
  have age : State.pageAge t = State.pageAge s := by
    funext x
    rw [State.pageAge, State.age, h]
    rfl
  have insert : t.insertPage = s.insertPage := by
    funext x xs
    induction xs with
    | nil => rfl
    | cons y ys ih => rw [State.insertPage, State.insertPage, ih, age]
  unfold State.inSequence
  rw [insert]

/-- A ring in sequence order follows from the directory, the sequence counter and the settings alone. -/
theorem State.ringInSequence_congr {s t : State} (directory : t.directory = s.directory) (seq : t.pageSeq = s.pageSeq)
    (settings : t.settings = s.settings) (o : OutletId) : t.ringInSequence o = s.ringInSequence o := by
  unfold State.ringInSequence State.ringPages State.outletSettings
  rw [State.inSequence_congr seq, directory, settings]

theorem State.takeRequest_listed (s : State) (l : Link) (a : PageListArgs) : (s.takeRequest l).listed a = s.listed a := by
  unfold State.listed
  rw [State.ringInSequence_congr (s := s) (t := s.takeRequest l) rfl rfl rfl]
  rfl

/-- A request that answers with what stands changes nothing else. -/
theorem reading_answers {s : State} {l : Link} {r : Request} {code : Byte} {owner : Request → State → State} {body : Body}
    (serving : Serving s l code r) (h : owner r (s.takeRequest l) = (s.takeRequest l).answer l r .ok body) :
    serve l code true owner s = .next (s.answered l r .ok body).refresh := by
  rw [serve_of_serving owner serving, h, State.takeRequest_answer]

/-- The ring's entries that PAGE-LIST returns, by the three tests of R126 alone: an entry of a state in its filter is not EMPTY, and
one with a span that is listed holds a sequence. -/
theorem State.listed_perm (s : State) (a : PageListArgs) :
    (s.listed a).Perm ((s.ringPages a.outlet).filter fun x =>
      (match x.2.state with
        | .empty => false
        | .opened => a.filter.testBit 0
        | .closed => a.filter.testBit 1
        | .released => a.filter.testBit 2) &&
      (match x.2.span with
        | some (lo, hi) => decide (lo.frames ≤ a.last.frames ∧ a.first.frames ≤ hi.frames)
        | none => false) &&
      (match x.2.sequence with
        | some q => decide (a.start = 0 ∨ (s.pageSeq - q).toNat ≤ (s.pageSeq - a.start).toNat)
        | none => false)) := by
  refine (s.listed_spec a).1.trans (List.Perm.of_eq (List.filter_congr fun x _ => ?_))
  obtain ⟨n, e⟩ := x
  have listed : inFilter a.filter e.state = true → e.state ≠ .empty := by
    rintro h empty
    rw [empty] at h
    cases h
  have states : inFilter a.filter e.state =
      match e.state with
      | .empty => false
      | .opened => a.filter.testBit 0
      | .closed => a.filter.testBit 1
      | .released => a.filter.testBit 2 := by
    cases e.state <;> rfl
  have spans : e.intersects a.first a.last =
      match e.span with
      | some (lo, hi) => decide (lo.frames ≤ a.last.frames ∧ a.first.frames ≤ hi.frames)
      | none => false := by
    unfold PageEntry.intersects
    cases e.span with
    | none => rfl
    | some span => exact (Bool.decide_and ..).symm
  simp only [← states, ← spans]
  rw [Bool.eq_iff_iff]
  cases sequence : e.sequence with
  | none => simp
  | some q =>
    have age : s.pageAge (n, e) = (s.pageSeq - q).toNat := by simp [State.pageAge, State.age, sequence]
    simp only [age, State.age, Bool.and_eq_true, Bool.or_eq_true, beq_iff_eq, decide_eq_true_eq, bne_iff_ne, Option.isSome_some,
      and_true]
    exact and_iff_left_of_imp fun h => listed h.1.1

/-- Settles O28: each of them is served, and its owner answers and leaves the state as it stands. -/
theorem readRequestsAnswer : Obligations.ReadRequestsAnswer := by
  intro s l r
  refine ⟨fun o body serving => ?_, fun body serving => ?_, fun a fits own serving => ?_, fun body serving => ?_,
    fun body serving => ?_, fun o body serving => ?_, fun body serving => ?_⟩
  · have fits : readOutlet r.body = some o := by rw [body, readOutlet_outletByte]
    exact reading_answers serving (by rw [listSegments, fits]; rfl)
  · exact reading_answers serving (by rw [readProfiles, body]; rfl)
  · subst own
    refine ⟨s.listed a, s.listed_perm a, (s.listed_spec a).2, ?_⟩
    rw [List.head?_drop]
    exact reading_answers serving (by rw [listPages, fits, withArgs_some, State.takeRequest_listed])
  · exact reading_answers serving (by rw [listHolds, body]; rfl)
  · refine (serve_of_serving (readStatus l) serving).trans ?_
    rw [readStatus, body]
    cases l <;> rfl
  · refine (serve_of_serving (readMeter l) serving).trans ?_
    rw [readMeter, body, readOutlet_outletByte]
    cases l <;> rfl
  · refine (serve_of_serving (readFlags l) serving).trans ?_
    rw [readFlags, body]
    cases l <;> rfl

end Sys2Proof.Machine
end

section
/-! Byte layouts (chapters 7 and 12), the treatment of a frame (chapter 1) and the outcomes of a verdict (chapter 6). -/

namespace Sys2Proof.Machine

/-! ### Evidence records (R186) -/

@[simp] theorem length_restartNoteBytes (n : RestartNote) (waiting : Bool) : (restartNoteBytes n waiting).length = 10 := by
  simp [restartNoteBytes]

/-- The notes of the outlets, ten bytes each. -/
theorem length_restartNotes (notes : List RestartNote) (waiting : List Bool) (h : notes.length = waiting.length) :
    (List.zipWith restartNoteBytes notes waiting).flatten.length = 10 * notes.length := by
  induction notes generalizing waiting with
  | nil => simp
  | cons n notes ih =>
    cases waiting with
    | nil => cases h
    | cons w waiting =>
      simp only [List.length_cons, Nat.add_right_cancel_iff] at h
      simp only [List.zipWith_cons_cons, List.flatten_cons, List.length_append, length_restartNoteBytes, ih waiting h,
        List.length_cons]
      omega

@[simp] theorem length_judgementBytes (j : Judgement) (full : Nat) : (judgementBytes j full).length = 35 := by
  simp [judgementBytes]

@[simp] theorem length_dropRunBytes (r : DropRun) : (dropRunBytes r).length = 26 := by
  simp [dropRunBytes]

theorem length_verdictBytes (v : Verdict) : (verdictBytes v).length = 110 := by
  unfold verdictBytes
  simp only [List.length_append, length_idBytes]
  simp only [length_airBytes, length_rfnBytes, length_judgementBytes, length_languageBytes, length_le, length_byte]
  simp only [length_yesNo, length_holdResultBytes]

theorem length_breakVerdictBytes (v : BreakVerdict) : (breakVerdictBytes v).length = 110 := by
  unfold breakVerdictBytes
  simp only [List.length_append, length_idBytes]
  simp only [length_airBytes, length_rfnBytes, length_judgementBytes, length_le, length_byte]
  simp only [length_yesNo, length_holdResultBytes]
  rw [List.length_replicate, List.length_replicate]

/-- The fields of every kind of evidence record fit its body (R186). -/
theorem length_evidenceFields_le (b : EvidenceBody) : (evidenceFields b).length ≤ 112 := by
  cases b with
  | verdict v => simp only [evidenceFields, length_verdictBytes]; decide
  | breakVerdict v => simp only [evidenceFields, length_breakVerdictBytes]; decide
  | restart reload cleared notes waiting holdsRemoved discarded aborted =>
    have h := length_restartNotes notes.toList waiting.toList (by simp)
    simp only [Vector.length_toList] at h
    simp [evidenceFields, -List.length_flatten, h]
  | _ => simp [evidenceFields]

theorem EvidenceRecord.length_bytes (r : EvidenceRecord) : r.bytes.length = 128 := by
  simp [EvidenceRecord.bytes, length_padTo (length_evidenceFields_le r.draft.body)]

/-! ### Frame records (R116, R185) -/

/-- The record length is the least multiple of 16 that holds header and parts (R116). -/
theorem RecordContent.length_spec (c : RecordContent) :
    16 ∣ c.length ∧ 32 + c.parts.length ≤ c.length ∧ c.length < 32 + c.parts.length + 16 := by
  unfold RecordContent.length
  refine ⟨Nat.dvd_mul_left 16 _, ?_, ?_⟩ <;> omega

theorem RecordContent.length_bytes (c : RecordContent) : c.bytes.length = c.length := by
  obtain ⟨-, holds, -⟩ := c.length_spec
  unfold RecordContent.bytes
  refine length_padTo ?_
  simp only [List.length_append, length_le, length_byte, List.length_cons, List.length_nil, length_rfnBytes, length_airBytes,
    length_idBytes]
  omega

/-- The length field comes first (R185). -/
theorem RecordContent.take_two (c : RecordContent) : c.bytes.take 2 = le 2 c.length := by
  simp [RecordContent.bytes, padTo, le_two]

/-- Settles O51: every kind of evidence record fits its body, and a frame record's length is the padded length of its parts. -/
theorem recordLayouts : Obligations.RecordLayouts := by
  refine ⟨EvidenceRecord.length_bytes, fun c => ?_⟩
  obtain ⟨multiple, holds, least⟩ := c.length_spec
  refine ⟨c.length_bytes, multiple, holds, least, fun small => ?_⟩
  rw [c.take_two, unLe_le (by simpa using small)]

/-! ### Outcomes (R90, R100 to R102) -/

theorem judge_loudness (k : ClassLimits) (r : LoudRecord) (x : Reduction) (peak : Int) :
    (judge k r x peak).loudness = loudOutcome k x := rfl

theorem judge_shortTerm (k : ClassLimits) (r : LoudRecord) (x : Reduction) (peak : Int) :
    (judge k r x peak).shortTerm = shortTermOutcome k r.shortTermMax := rfl

/-- Settles O32: the outcomes are decided by comparisons with the limits, which pass. -/
theorem outcomesDecided : Obligations.OutcomesDecided := by
  refine ⟨fun k r peak => ⟨rfl, rfl, rfl, rfl, fun code gate => ⟨rfl, ?_⟩⟩, fun k r x peak => ?_, fun r => ⟨rfl, fun x strict => ?_⟩⟩
  · rw [judge_loudness, loudOutcome]
    refine ⟨fun high => if_pos high, fun below low => ?_, fun below above => ?_⟩
    · rw [if_neg (by omega), if_pos low]
    · rw [if_neg (by omega), if_neg (by omega)]
  · rw [judge_shortTerm, shortTermOutcome]
    refine ⟨fun unlimited => by rw [unlimited], fun limited silent => ?_, fun m v limit value => by rw [limit, value],
      decide_eq_true_iff⟩
    obtain ⟨m, limit⟩ := Option.isSome_iff_exists.mp limited
    rw [limit, silent]
  · rw [subOutcome, if_neg strict]
    refine ⟨fun gap => if_pos gap, fun none wrong => ?_, fun none right => ?_⟩
    · rw [if_neg (by omega), if_pos wrong]
    · rw [if_neg (by omega), if_neg (by omega)]

/-! ### The treatment of a frame (R2 to R9) -/

theorem takeMany_length {α : Type} {take : Bytes → Option (α × Bytes)} {n : Nat} {bs : Bytes} {p : List α × Bytes}
    (h : takeMany take n bs = some p) : p.1.length = n := by
  induction n generalizing bs p with
  | zero =>
    cases h
    rfl
  | succ n ih =>
    simp only [takeMany, Option.bind_eq_some_iff, Option.map_eq_some_iff] at h
    obtain ⟨first, -, rest, many, rfl⟩ := h
    simp [ih many]

/-- The samples of a frame as read are as many as it says (R2, R184). -/
theorem takeFrame_samples {bs : Bytes} {p : AirFrame × Bytes} (h : takeFrame bs = some p) :
    p.1.samples.length = p.1.sampleCount := by
  simp only [takeFrame, Option.bind_eq_bind, Option.pure_def, Option.bind_eq_some_iff, Option.some.injEq] at h
  obtain ⟨outlet, -, sequence, -, code, -, count, -, samples, many, unitCount, -, units, -, length, -, proxy, -, rfl⟩ := h
  exact takeMany_length many

theorem atEnd_eq_some {α : Type} {x : Option (α × Bytes)} {a : α} (h : atEnd x = some a) : x = some (a, []) := by
  unfold atEnd at h
  split at h
  · cases h
    rfl
  · cases h

theorem readFrame_samples {bytes : Bytes} {f : AirFrame} (h : readFrame bytes = some f) : f.samples.length = f.sampleCount := by
  simp only [readFrame, Option.bind_eq_bind, Option.bind_eq_some_iff] at h
  obtain ⟨⟨front, check⟩, -, h⟩ := h
  split at h
  · exact takeFrame_samples (atEnd_eq_some h)
  · cases h

theorem treat_of_none {o : OutletId} {bytes : Bytes} (h : readFrame bytes = none) : treat o bytes = corruptFrame o := by
  rw [treat, h]

theorem treat_of_some {o : OutletId} {bytes : Bytes} {f : AirFrame} (h : readFrame bytes = some f) :
    treat o bytes = trustedFrame o f := by
  rw [treat, h]

theorem Treated.audio_of_none {f : Treated} (h : f.layout = .none) : f.audio = List.replicate 1920 (Six.all 0) := if_pos h

theorem Treated.audio_of_layout {f : Treated} (h : f.layout ≠ .none) : f.audio = f.samples.map (spread f.layout) := if_neg h

/-- A bit of a set of bits is the Bool at its place (R183). -/
theorem testBit_bitsOf (bs : List Bool) (i : Nat) : (bitsOf bs).testBit i = bs.getD i false := by
  induction bs generalizing i with
  | nil => simp [bitsOf]
  | cons b bs ih =>
    cases i with
    | zero => cases b <;> simp [bitsOf, Nat.testBit_zero]
    | succ i =>
      have half : bitsOf (b :: bs) / 2 = bitsOf bs := by
        simp only [bitsOf]
        split <;> omega
      rw [Nat.testBit_succ, half, ih]
      rfl

theorem bitsOf_lt (bs : List Bool) : bitsOf bs < 2 ^ bs.length := by
  induction bs with
  | nil => simp [bitsOf]
  | cons b bs ih =>
    simp only [bitsOf, List.length_cons, Nat.pow_succ]
    split <;> omega

/-- The ten frame flags as a list, in the bit order of R183. -/
def Treated.flagList (f : Treated) (expected : Option (BitVec 16)) (ref : RefState) : List Bool :=
  [f.corrupt, f.mismatch, f.discontinuous expected, f.absent, f.short, f.long, f.unitsDropped, f.proxyTruncated,
    ref == .holdover, ref == .unset]

theorem Treated.flags_bit (f : Treated) (expected : Option (BitVec 16)) (ref : RefState) {i : Nat} (h : i < 16) :
    (f.flags expected ref).getLsbD i = (f.flagList expected ref).getD i false := by
  rw [Treated.flags, BitVec.getLsbD_ofNat, testBit_bitsOf]
  simp [h, Treated.flagList]

theorem Treated.flags_lt (f : Treated) (expected : Option (BitVec 16)) (ref : RefState) :
    (f.flags expected ref).toNat < 1024 := by
  have bound : bitsOf (f.flagList expected ref) < 2 ^ 10 := bitsOf_lt (f.flagList expected ref)
  rw [Treated.flags, BitVec.toNat_ofNat]
  exact lt_of_le_of_lt (Nat.mod_le _ _) bound

/-- The flags of a corrupt frame: CORRUPT and the time flag (R3, R9). -/
theorem corruptFrame_flags (o : OutletId) (expected : Option (BitVec 16)) (ref : RefState) :
    (corruptFrame o).flags expected ref = if ref = .holdover then 257 else if ref = .unset then 513 else 1 := by
  cases ref <;> simp [Treated.flags, Treated.discontinuous, corruptFrame, bitsOf]

theorem keptUnit_eq (u : SubUnit) : keptUnit u = if u.kind = 1 ∧ u.text = [] then { u with kind := 3 } else u := by
  have shows : unitKind u = some .show ↔ u.kind = 1 := by
    constructor
    · intro h
      unfold unitKind at h
      split at h
      case h_1 one => exact BitVec.eq_of_toNat_eq one
      all_goals cases h
    · intro h
      rw [unitKind, h]
      rfl
  exact if_congr (and_congr_left' shows) rfl rfl

/-- Settles O15: the two treatments, field by field, and the flags bit by bit. -/
theorem frameTreated : Obligations.FrameTreated := by
  refine ⟨fun o bytes bad => ?_, fun o bytes f good => ?_⟩
  · rw [treat_of_none bad]
    exact ⟨rfl, rfl, corruptFrame_flags o⟩
  · dsimp only
    rw [treat_of_some good]
    have samples := readFrame_samples good
    refine ⟨samples, rfl, rfl, List.map_congr_left fun u _ => keptUnit_eq u, rfl, fun absent => ?_, fun present => ?_,
      fun expected ref => ?_⟩
    · have layout : (trustedFrame o f).layout = .none := if_pos (decide_eq_true absent)
      exact ⟨layout, if_pos (decide_eq_true absent), Treated.audio_of_none layout⟩
    · have here : ¬decide (f.layout = .none ∨ f.sampleCount = 0) = true := by simpa using present
      have layout : (trustedFrame o f).layout = f.layout := if_neg here
      have kept : (trustedFrame o f).samples = normalised f.layout f.samples := by
        refine (if_neg here).trans ?_
        exact congrArg (fun x => normalised x f.samples) layout
      have audible : (trustedFrame o f).layout ≠ .none := by
        rw [layout]
        exact fun h => present (.inl h)
      refine ⟨layout, by rw [Treated.audio_of_layout audible, layout], fun short => ?_, fun long => ?_⟩
      · rw [kept, normalised, List.take_of_length_le (by rw [samples]; exact short), samples]
        rfl
      · rw [kept, normalised, samples, show frameSamples - f.sampleCount = 0 from by unfold frameSamples; omega]
        simp [frameSamples]
    · have bits : ∀ {i : Nat}, i < 16 → ((trustedFrame o f).flags expected ref).getLsbD i =
          ((trustedFrame o f).flagList expected ref).getD i false := fun h => Treated.flags_bit _ _ _ h
      have outlet : f.outlet ≠ outletByte o ↔ f.outlet.toNat ≠ o.val := by
        rw [← outletByte_toNat o, not_iff_not]
        exact ⟨fun h => by rw [h], fun h => BitVec.eq_of_toNat_eq h⟩
      refine ⟨(bits (by decide)).trans rfl, ?_, ?_, ?_, ?_, ?_, ?_, ?_, ?_, ?_, Treated.flags_lt _ _ _⟩
      · rw [bits (by decide), outlet]
        exact decide_eq_true_iff
      · rw [bits (by decide)]
        cases expected with
        | none => simp [Treated.flagList, Treated.discontinuous]
        | some e => simp [Treated.flagList, Treated.discontinuous, trustedFrame]
      · rw [bits (by decide)]
        exact decide_eq_true_iff
      · rw [bits (by decide)]
        change (!decide _ && decide _) = true ↔ _
        rw [Bool.and_eq_true, Bool.not_eq_true', decide_eq_false_iff_not, decide_eq_true_iff]
        rfl
      · rw [bits (by decide)]
        change (!decide _ && decide _) = true ↔ _
        rw [Bool.and_eq_true, Bool.not_eq_true', decide_eq_false_iff_not, decide_eq_true_iff]
        rfl
      · rw [bits (by decide)]
        exact decide_eq_true_iff
      · rw [bits (by decide)]
        exact decide_eq_true_iff
      · rw [bits (by decide)]
        exact beq_iff_eq
      · rw [bits (by decide)]
        exact beq_iff_eq

end Sys2Proof.Machine
end

section
/-! Declarations and withdrawals (chapter 3), the loss of a return (chapter 1), and the step of the machine. -/

namespace Sys2Proof.Machine

/-! ### The step (log entry 14) -/

theorem step_cons {s : State} {c : Instr} {rest : List Instr} (h : s.pending = c :: rest) :
    step s = exec c { s with pending := rest } := by
  rw [step, h]

theorem step_nil {s : State} (h : s.pending = []) : step s = .next s := by
  rw [step, h]

/-- Settles O1: the queue of commands is matched once. -/
theorem stepTakesFrontCommand : Obligations.StepTakesFrontCommand :=
  ⟨fun _ _ _ h => step_cons h, fun _ h => step_nil h⟩

/-! ### The evaluation of a head (R39, R40, R42) -/

theorem State.evaluate_of_empty {s : State} {o : OutletId} (h : (s.outlet o).sched.queue = []) (cause : LateCause) :
    s.evaluate o cause = s := by
  simp [State.evaluate, State.head, h]

/-- An occupied slot leaves the head where it is. -/
theorem State.evaluate_of_armed {s : State} {o : OutletId} (h : (s.outlet o).sched.armed.isSome = true) (cause : LateCause) :
    s.evaluate o cause = s := by
  unfold State.evaluate
  cases s.head o with
  | none => rfl
  | some d => exact if_pos h

/-- A head whose trigger has not come stays in the queue. -/
theorem State.evaluate_of_waiting {s : State} {o : OutletId} {d : Declaration} (head : s.head o = some d)
    (timed : ∀ a : AirTime, d.start = some (.timed a) → s.time.air.frames < a.frames)
    (follow : d.start = some .follow → s.followDue o = false) (cause : LateCause) : s.evaluate o cause = s := by
  unfold State.evaluate
  rw [head]
  dsimp only
  split
  · rfl
  · split
    case h_1 start h => exact if_neg (by simpa [AirTime.atOrBefore] using timed start h)
    case h_2 h => exact if_neg (by simp [follow h])
    case h_3 => rfl

/-- A TIMED head that is due with the slot empty is armed, and late where its start time is past (R40). -/
theorem State.evaluate_of_timed {s : State} {o : OutletId} {d : Declaration} {a : AirTime} (head : s.head o = some d)
    (free : (s.outlet o).sched.armed = none) (start : d.start = some (.timed a)) (due : a.frames ≤ s.time.air.frames)
    (cause : LateCause) :
    s.evaluate o cause =
      let armed := s.armHead o d (.stamp (s.delayed o a)) .timed (decide (a.frames < s.time.air.frames))
      if a.frames < s.time.air.frames then armed.create (lateDraft o d a s.time.air cause) else armed := by
  unfold State.evaluate
  rw [head]
  dsimp only
  rw [if_neg (by simp [free]), start]
  dsimp only
  rw [if_pos (by simpa [AirTime.atOrBefore] using due), State.armTimed]
  by_cases late : a.frames < s.time.air.frames
  · simp only [AirTime.before, late, decide_true, if_true]
    rfl
  · simp only [AirTime.before, late, decide_false, if_false, Bool.false_eq_true]
    rfl

/-- A FOLLOW head is armed with the slot empty once the current segment has reached its duration (R42). -/
theorem State.evaluate_of_follow {s : State} {o : OutletId} {d : Declaration} (head : s.head o = some d)
    (free : (s.outlet o).sched.armed = none) (start : d.start = some .follow) (due : s.followDue o = true) (cause : LateCause) :
    s.evaluate o cause = s.armFollow o d := by
  unfold State.evaluate
  rw [head]
  dsimp only
  rw [if_neg (by simp [free]), start]
  exact if_pos due

/-- The evaluation of a head neither reads nor writes the ports. -/
theorem State.evaluate_links (s : State) (k : PerLink LinkPort) (o : OutletId) (cause : LateCause) :
    ({ s with links := k }).evaluate o cause = { s.evaluate o cause with links := k } := by
  have head : State.head { s with links := k } o = s.head o := rfl
  unfold State.evaluate
  rw [head]
  split
  · rfl
  · rename_i d _
    have armed : (State.outlet { s with links := k } o) = s.outlet o := rfl
    rw [armed]
    split
    · rfl
    · split
      · rename_i start _
        by_cases due : start.atOrBefore s.time.air = true
        · simp only [due, if_true, State.armTimed]
          split <;> rfl
        · simp only [due]
          rfl
      · have same : State.followDue { s with links := k } o = s.followDue o := rfl
        rw [same]
        split <;> rfl
      · rfl

theorem State.evaluate_links_same (s : State) (o : OutletId) (cause : LateCause) : (s.evaluate o cause).links = s.links :=
  (congrArg State.links (s.evaluate_links s.links o cause) :)

theorem State.links_self {s : State} {k : PerLink LinkPort} (h : s.links = k) : { s with links := k } = s := by
  subst h
  rfl

/-- A head may be evaluated before its request is taken as well as between its taking and its answer. -/
theorem State.takeRequest_evaluate_answer (s : State) (l : Link) (o : OutletId) (f : Sched → Sched) (cause : LateCause)
    (r : Request) (status : Status) (body : Body) :
    (((s.takeRequest l).modSched o f).evaluate o cause).answer l r status body =
      ((s.modSched o f).evaluate o cause).answered l r status body := by
  have same : (s.takeRequest l).modSched o f = { s.modSched o f with links := (s.takeRequest l).links } := rfl
  rw [same, State.evaluate_links, State.answer_of_links (s := s) (by rfl)]
  exact congrArg (fun u : State => u.answered l r status body)
    (State.links_self (State.evaluate_links_same (s.modSched o f) o cause))

/-- Two changes of an outlet that agree on what it is are one. -/
theorem State.modOutlet_congr {s : State} {o : OutletId} {f g : Outlet → Outlet} (h : f (s.outlet o) = g (s.outlet o)) :
    s.modOutlet o f = s.modOutlet o g := by
  unfold State.outlet at h
  unfold State.modOutlet
  rw [h]

@[simp] theorem State.modSched_sched (s : State) (o : OutletId) (f : Sched → Sched) :
    ((s.modSched o f).outlet o).sched = f (s.outlet o).sched := by
  rw [State.modSched, State.outlet_modOutlet_same]

@[simp] theorem State.create_outlet (s : State) (d : Draft) (o : OutletId) : (s.create d).outlet o = s.outlet o := rfl

/-! ### SEG-DECLARE (R34) -/

theorem exec_segDeclare_of_serving {s : State} {r : Request} (serving : Serving s .automation 1 r) :
    exec (.segDeclare .automation) s = .next (declareSegment .automation r (s.takeRequest .automation)).refresh :=
  serve_of_serving (declareSegment .automation) serving

/-- An outlet's declarations with one more at the queue's tail (R34). -/
def Sched.append (q : Sched) (d : Declaration) : Sched := { q with queue := q.queue ++ [d] }

/-- A declaration that is new, with room in the queue: it joins the queue, and as its head it is evaluated (R34). -/
theorem declareSegment_of_new {s : State} {r : Request} {o : OutletId} {d : Declaration} (fits : readSegDeclare r.body = some (o, d))
    (new : d.id ∉ (s.outlet o).sched.ids) (room : (s.outlet o).sched.queue.length < 16) (l : Link) :
    declareSegment l r s =
      let appended := s.modSched o fun q => q.append d
      let settled := if (s.outlet o).sched.queue.isEmpty then appended.evaluate o .lateDeclare else appended
      settled.answer l r .ok (.segDeclare d.id ((settled.outlet o).sched.standing d.id)) := by
  rw [declareSegment, fits, withArgs_some]
  exact (if_neg new).trans (if_neg (Nat.not_le.mpr room))

/-- A declaration that is new stands at the queue's tail, unless it has been armed (R34). -/
theorem Sched.standing_of_new {q : Sched} {id : BitVec 32} (h : ∀ a : Armed, q.armed = some a → a.decl.id ≠ id) :
    q.standing id = .pending q.queue.length q.queue.length := by
  unfold Sched.standing
  cases armed : q.armed with
  | none => rfl
  | some a => exact if_neg (h a armed)

theorem Sched.armed_ne_of_not_mem {q : Sched} {id : BitVec 32} (h : id ∉ q.ids) (a : Armed) (armed : q.armed = some a) :
    a.decl.id ≠ id := by
  rintro rfl
  exact h (by simp [Sched.ids, armed])

theorem Sched.mem_ids_iff (q : Sched) (id : BitVec 32) :
    id ∈ q.ids ↔ (∃ d ∈ q.queue, d.id = id) ∨ (∃ a : Armed, q.armed = some a ∧ a.decl.id = id) ∨
      ∃ c : Current, q.current = some c ∧ c.decl.id = id := by
  simp [Sched.ids]

/-- A declaration that stays in the queue is answered as pending at its tail (R34). -/
theorem declareSegment_of_pending {s : State} {r : Request} {o : OutletId} {d : Declaration}
    (fits : readSegDeclare r.body = some (o, d)) (new : d.id ∉ (s.outlet o).sched.ids)
    (room : (s.outlet o).sched.queue.length < 16)
    (stays : (s.outlet o).sched.queue = [] →
      (s.modSched o fun q => q.append d).evaluate o .lateDeclare = s.modSched o fun q => q.append d) (l : Link) :
    declareSegment l r s =
      (s.modSched o fun q => q.append d).answer l r .ok
        (.segDeclare d.id (.pending ((s.outlet o).sched.queue.length + 1) ((s.outlet o).sched.queue.length + 1))) := by
  have settled : (if (s.outlet o).sched.queue.isEmpty = true then (s.modSched o fun q => q.append d).evaluate o .lateDeclare
      else s.modSched o fun q => q.append d) = s.modSched o fun q => q.append d := by
    split
    · rename_i empty
      exact stays (List.isEmpty_iff.mp empty)
    · rfl
  have unarmed : ∀ a : Armed, ((s.outlet o).sched.append d).armed = some a → a.decl.id ≠ d.id :=
    fun a armed => Sched.armed_ne_of_not_mem new a armed
  rw [declareSegment_of_new fits new room]
  simp only [settled, State.modSched_sched]
  rw [Sched.standing_of_new unarmed]
  simp [Sched.append]

/-- A declaration that its evaluation arms is answered as armed (R34). -/
theorem declareSegment_of_armed {s u : State} {r : Request} {o : OutletId} {d : Declaration} {a : Armed}
    (fits : readSegDeclare r.body = some (o, d)) (new : d.id ∉ (s.outlet o).sched.ids) (empty : (s.outlet o).sched.queue = [])
    (evaluated : (s.modSched o fun q => q.append d).evaluate o .lateDeclare = u) (armed : (u.outlet o).sched.armed = some a)
    (same : a.decl = d) (l : Link) :
    declareSegment l r s = u.answer l r .ok (.segDeclare d.id (.armed a.boundary)) := by
  rw [declareSegment_of_new fits new (by simp [empty])]
  simp [empty, evaluated, Sched.standing, armed, same]

/-- The head of a queue that was empty before a declaration is the declaration. -/
theorem State.head_append {s : State} {o : OutletId} {d : Declaration} (empty : (s.outlet o).sched.queue = []) :
    (s.modSched o fun q => q.append d).head o = some d := by
  simp [State.head, Sched.append, empty]

theorem State.followDue_append (s : State) (o : OutletId) (d : Declaration) :
    (s.modSched o fun q => q.append d).followDue o = s.followDue o := by
  simp [State.followDue, State.current, Sched.append]

/-- A declaration armed as soon as it is head: the queue is empty again (R34, R39). -/
theorem State.armHead_append {s : State} {o : OutletId} (empty : (s.outlet o).sched.queue = []) (d : Declaration)
    (boundary : BoundaryStamp) (cause : ArmCause) (late : Bool) :
    (s.modSched o fun q => q.append d).armHead o d boundary cause late =
      s.modSched o fun q =>
        { q with
          waiting := none
          armed := some { decl := d, boundary := boundary, cause := cause, armStamp := s.time.air, lateStart := late } } := by
  unfold State.armHead State.modSched
  rw [State.modOutlet_modOutlet]
  exact State.modOutlet_congr (by simp [Sched.arm, Sched.append, empty])

/-- Settles O25: the rows of R34, and for a new head those of R40 and R42. -/
theorem segDeclareTaken : Obligations.SegDeclareTaken := by
  intro s r serving
  rw [exec_segDeclare_of_serving serving]
  refine ⟨fun misfit => by rw [declareSegment, misfit, withArgs_none, State.takeRequest_answer], fun o d fits => ?_⟩
  refine ⟨fun known => ?_, fun new full => ?_, fun new room => ⟨fun stays => ?_, fun a empty free start due => ?_,
    fun empty free start due => ?_⟩⟩
  · rw [declareSegment, fits, withArgs_some]
    exact next_refresh_congr ((if_pos known).trans (State.takeRequest_answer ..))
  · rw [declareSegment, fits, withArgs_some]
    exact next_refresh_congr ((if_neg new).trans ((if_pos full).trans (State.takeRequest_answer ..)))
  · rw [declareSegment_of_pending (s := s.takeRequest .automation) fits new room]
    · exact next_refresh_congr (State.takeRequest_modSched_answer ..)
    · intro empty
      rcases stays with queued | armed | ⟨timed, follow⟩
      · exact absurd empty queued
      · exact State.evaluate_of_armed (by simpa [Sched.append] using armed) _
      · refine State.evaluate_of_waiting (State.head_append empty) timed (fun h => ?_) _
        rw [State.followDue_append]
        exact follow h
  · have head := State.head_append (s := s.takeRequest .automation) (d := d) empty
    have evaluated := State.evaluate_of_timed head (by simpa [Sched.append] using free) start due .lateDeclare
    rw [State.armHead_append (s := s.takeRequest .automation) empty] at evaluated
    dsimp only at evaluated
    by_cases late : a.frames < s.time.air.frames
    · rw [if_pos (show a.frames < ((s.takeRequest .automation).modSched o fun q => q.append d).time.air.frames from late)]
        at evaluated
      rw [declareSegment_of_armed (s := s.takeRequest .automation) fits new empty evaluated (by rw [State.create_outlet, State.modSched_sched]) rfl]
      refine next_refresh_congr ((State.answer_of_links (by rfl) ..).trans ?_)
      rw [if_pos (decide_eq_true late)]
      rfl
    · rw [if_neg (show ¬a.frames < ((s.takeRequest .automation).modSched o fun q => q.append d).time.air.frames from late)]
        at evaluated
      rw [declareSegment_of_armed (s := s.takeRequest .automation) fits new empty evaluated (congrArg Sched.armed (State.modSched_sched ..)) rfl]
      refine next_refresh_congr ((State.answer_of_links (by rfl) ..).trans ?_)
      rw [if_neg (by simpa using late)]
      rfl
  · have head := State.head_append (s := s.takeRequest .automation) (d := d) empty
    have evaluated := State.evaluate_of_follow head (by simpa [Sched.append] using free) start
      ((State.followDue_append ..).trans due) .lateDeclare
    rw [State.armFollow, State.armHead_append (s := s.takeRequest .automation) empty] at evaluated
    rw [declareSegment_of_armed (s := s.takeRequest .automation) fits new empty evaluated (congrArg Sched.armed (State.modSched_sched ..)) rfl]
    exact next_refresh_congr (State.takeRequest_modSched_answer ..)

/-! ### SEG-WITHDRAW (R35) -/

theorem exec_segWithdraw_of_serving {s : State} {r : Request} (serving : Serving s .automation 2 r) :
    exec (.segWithdraw .automation) s = .next (withdrawSegment .automation r (s.takeRequest .automation)).refresh :=
  serve_of_serving (withdrawSegment .automation) serving

/-- Where the first declaration of an id stands in a queue. -/
theorem findIdx?_of_split {front back : List Declaration} {d : Declaration} {id : BitVec 32} (here : d.id = id)
    (before : ∀ e ∈ front, e.id ≠ id) : (front ++ d :: back).findIdx? (fun d => d.id == id) = some front.length := by
  rw [List.findIdx?_append, List.findIdx?_eq_none_iff.mpr (by simpa using before)]
  simp [List.findIdx?_cons, here]

/-- Settles O26: the declaration's place gives the row, and the queue without it is what stands around it. -/
theorem segWithdrawTaken : Obligations.SegWithdrawTaken := by
  intro s r serving
  rw [exec_segWithdraw_of_serving serving, withdrawSegment]
  refine ⟨fun misfit => by rw [misfit, withArgs_none, State.takeRequest_answer], fun o id fits => ?_⟩
  rw [fits, withArgs_some]
  refine ⟨fun front back d queue here before => ?_, fun gone => ?_⟩
  · have found : (s.outlet o).sched.queue.findIdx? (fun d => d.id == id) = some front.length := by
      rw [queue, findIdx?_of_split here before]
    have rest : (s.outlet o).sched.queue.eraseIdx front.length = front ++ back := by
      rw [queue, List.eraseIdx_append_of_length_le (Nat.le_refl _)]
      simp
    have depth : (s.outlet o).sched.queue.length - 1 = front.length + back.length := by
      rw [queue]
      simp
    simp only [State.takeRequest_outlet, found, depth]
    have removed : front = [] → ∀ f : Sched → Sched, f (s.outlet o).sched =
          { (s.outlet o).sched with queue := back, waiting := none } →
        (s.takeRequest .automation).withdraw o front.length =
          ((s.takeRequest .automation).modSched o f).evaluate o .lateDeclare := by
      rintro rfl f hf
      refine congrArg (fun u : State => u.evaluate o .lateDeclare) (State.modSched_congr (Eq.trans ?_ hf.symm))
      simp only [State.takeRequest_outlet, rest]
      rfl
    refine ⟨fun some => ?_, fun none last => ?_, fun none => ?_⟩
    · have place : front.length ≠ 0 := by simpa using some
      rw [State.withdraw, if_neg place, State.takeRequest_modSched_answer]
      refine next_refresh_congr ?_
      rw [State.modSched_congr (s := s) (g := fun q => { q with queue := front ++ back }) (by simp only [rest, if_neg place])]
    · rw [removed none (fun q => { q with queue := [], waiting := Option.none }) (by rw [last]), none,
        State.evaluate_of_empty (by rw [State.modSched_sched]), State.takeRequest_modSched_answer]
    · rw [removed none (fun q => { q with queue := back, waiting := Option.none }) rfl, none,
        State.takeRequest_evaluate_answer]
  · have absent : (s.outlet o).sched.queue.findIdx? (fun d => d.id == id) = none :=
      List.findIdx?_eq_none_iff.mpr (by simpa using gone)
    simp only [State.takeRequest_outlet, absent]
    refine ⟨fun known => ?_, fun free other => ?_⟩
    · exact next_refresh_congr ((if_pos ((Sched.mem_ids_iff _ _).mpr (.inr known))).trans (State.takeRequest_answer ..))
    · refine next_refresh_congr ((if_neg fun h => ?_).trans (State.takeRequest_answer ..))
      rcases (Sched.mem_ids_iff _ _).mp h with ⟨d, hd, here⟩ | ⟨a, ha, here⟩ | ⟨c, hc, here⟩
      · exact gone d hd here
      · exact free a ha here
      · exact other c hc here

/-! ### The loss of a return (R12) -/

theorem State.enterLost_eq (s : State) (o : OutletId) :
    s.enterLost o = s.modOutlet o fun t => { t with intake := { t.intake with state := .lost, expected := none, lostTicks := 0 } } :=
  rfl

/-- Settles O16: the command acts on a timer at 3, and the tick on one that it brings there. -/
theorem returnLostAtThree : Obligations.ReturnLostAtThree := by
  intro s o active
  have lost : s.enterLost o = s.modOutlet o fun t =>
      { t with intake := { (s.outlet o).intake with state := .lost, expected := none, lostTicks := 0 } } := by
    rw [State.enterLost_eq]
    exact State.modOutlet_congr rfl
  refine ⟨fun powered three => ?_, fun two => ?_, fun below => ?_⟩
  · refine (when_next _ _ _).trans ?_
    rw [if_pos (by simp [powered, active, three]), lost]
    rfl
  · unfold State.tickIntake
    rw [active]
    dsimp only
    rw [if_pos (by omega)]
    refine Prod.ext ?_ ?_
    · dsimp only
      rw [State.enterLost, State.modIntake, State.modIntake, State.modOutlet_modOutlet, State.modOutlet_modOutlet]
      exact State.modOutlet_congr (by simp [two])
    · simp [State.lostDraft, State.modIntake, State.current, State.outlet_modOutlet_same, State.modOutlet_time]
  · unfold State.tickIntake
    rw [active]
    dsimp only
    rw [if_neg (by omega)]
    rfl

end Sys2Proof.Machine
end

section
/-! What every command but a few leaves of the state: the settings and the loading, the shape of the tables, queues and stores, what
is being written to record memory, and all but some parts of the outlets. The laws that the steps keep rest on it. -/

namespace Sys2Proof.Machine

/-! ### The relation -/

/-- A port's tables and queues keep within their sizes, and no more reads are given up than wait (R162, R166, R173). -/
structure LinkPort.Fits (p : LinkPort) : Prop where
  outstanding : p.outstanding.length ≤ 8
  deferred : p.deferred.length ≤ 4
  givenUp : p.givenUp ≤ p.fetches.length

/-- The bounds of both ports, of the evidence FIFO and of the hold table (R135, R150). -/
structure TablesFit (s : State) : Prop where
  ports : ∀ l : Link, (s.link l).Fits
  fifo : s.evidence.fifo.length ≤ 64
  holds : s.holds.length ≤ 32

/-- A burst that writes to record memory. -/
def Burst.writes : Burst → Prop
  | .record .. => True
  | .evidence _ => True
  | .read .. => False

/-- Two states that differ at most in the parts of outlets that `R` allows, and else in nothing the laws of the state speak of. -/
structure Keeps (R : OutletId → Part → Prop) (s t : State) : Prop where
  settings : t.settings = s.settings
  images : ImagesValid s → ImagesValid t
  loading : t.loading = s.loading
  restarting : t.restarting.isSome = s.restarting.isSome
  outlets : ∀ (o : OutletId) (x : Part), ¬R o x → x.same (s.outlet o) (t.outlet o)
  stores : StoresCanonical s → StoresCanonical t
  tables : TablesFit s → TablesFit t
  port : ∀ b : Burst, t.port = some b → b.writes → s.port = some b
  head : t.evidence.head = s.evidence.head

section
variable {R : OutletId → Part → Prop}

theorem Keeps.refl (s : State) : Keeps R s s :=
  ⟨rfl, id, rfl, rfl, fun _ x _ => x.same_refl _, id, id, fun _ h _ => h, rfl⟩

theorem Keeps.trans {s t u : State} (h : Keeps R s t) (k : Keeps R t u) : Keeps R s u :=
  ⟨k.settings.trans h.settings, fun v => k.images (h.images v), k.loading.trans h.loading, k.restarting.trans h.restarting,
    fun o x free => Part.same_trans (h.outlets o x free) (k.outlets o x free), fun c => k.stores (h.stores c),
    fun f => k.tables (h.tables f), fun b p w => h.port b (k.port b p w) w, k.head.trans h.head⟩

theorem Keeps.ite {s t u : State} {c : Prop} [Decidable c] (h : Keeps R s t) (k : Keeps R s u) : Keeps R s (if c then t else u) := by
  split
  · exact h
  · exact k

/-- Records created keep the FIFO within its size, and leave the ring as it is. -/
theorem Evidence.foldl_create_spec (e : Evidence) (ds : List Draft) :
    (ds.foldl Evidence.create e).head = e.head ∧ (e.fifo.length ≤ 64 → (ds.foldl Evidence.create e).fifo.length ≤ 64) := by
  induction ds generalizing e with
  | nil => exact ⟨rfl, id⟩
  | cons d ds ih =>
    obtain ⟨head, bound⟩ := ih (e.create d)
    obtain ⟨-, same, -, -, -, -⟩ := e.create_spec d
    exact ⟨head.trans same, fun h => bound (Evidence.create_bound h d)⟩

theorem Keeps.of_spreads {s t : State} (h : Spreads R s t) : Keeps R s t := by
  obtain ⟨ds, records⟩ := h.records
  obtain ⟨head, bound⟩ := s.evidence.foldl_create_spec ds
  have copy : t.imageCopy = s.imageCopy := (congrArg State.imageCopy h.frame :)
  have save : t.save = s.save := (congrArg State.save h.frame :)
  have memory : t.memory = s.memory := (congrArg State.memory h.frame :)
  have port : t.port = s.port := (congrArg State.port h.frame :)
  have restarting : t.restarting = s.restarting := (congrArg State.restarting h.frame :)
  refine ⟨h.settings, fun v => ?_, (congrArg State.loading h.frame :), by rw [restarting], h.outlets, fun c => ?_, fun f => ?_,
    fun b hb _ => by rw [← port, hb], by rw [records, head]⟩
  · unfold ImagesValid
    rwa [h.settings, copy, save]
  · exact ⟨by rw [memory]; exact c.1, h.canonical c.2⟩
  · refine ⟨fun l => ?_, by rw [records]; exact bound f.fifo, h.room f.holds⟩
    have fits := f.ports l
    rw [← h.links l] at fits
    exact ⟨fits.1, fits.2, fits.3⟩

/-! ### Single updates -/

theorem Keeps.refresh (s : State) : Keeps R s s.refresh :=
  ⟨rfl, id, rfl, rfl, fun _ x _ => x.same_refl _, id,
    fun f => ⟨fun l => by have h := f.ports l; cases l <;> exact ⟨h.1, h.2, h.3⟩, f.fifo, f.holds⟩, fun _ h _ => h, rfl⟩

theorem Keeps.modLink (s : State) (l : Link) {f : LinkPort → LinkPort} (h : (s.link l).Fits → (f (s.link l)).Fits) :
    Keeps R s (s.modLink l f) := by
  refine ⟨rfl, id, rfl, rfl, fun _ x _ => x.same_refl _, id, fun k => ⟨fun m => ?_, k.fifo, k.holds⟩, fun _ h _ => h, rfl⟩
  by_cases same : m = l
  · subst same
    rw [State.modLink_link]
    exact h (k.ports m)
  · rw [State.modLink_link_of_ne s same]
    exact k.ports m

theorem Keeps.modLinks (s : State) {f : LinkPort → LinkPort} (h : ∀ p : LinkPort, p.Fits → (f p).Fits) :
    Keeps R s (s.modLinks f) :=
  ⟨rfl, id, rfl, rfl, fun _ x _ => x.same_refl _, id,
    fun k => ⟨fun m => by rw [State.modLinks_link]; exact h _ (k.ports m), k.fifo, k.holds⟩, fun _ h _ => h, rfl⟩

theorem Keeps.modTime (s : State) (f : TimeBase → TimeBase) : Keeps R s (s.modTime f) :=
  ⟨rfl, id, rfl, rfl, fun _ x _ => x.same_refl _, id, fun k => ⟨k.ports, k.fifo, k.holds⟩, fun _ h _ => h, rfl⟩

theorem Keeps.setCue (s : State) (k : CueLine) (c : CueRecord) : Keeps R s (s.setCue k c) :=
  ⟨rfl, id, rfl, rfl, fun _ x _ => x.same_refl _, id, fun k => ⟨k.ports, k.fifo, k.holds⟩, fun _ h _ => h, rfl⟩

/-- A change of the evidence that leaves its head, and adds nothing to its FIFO. -/
theorem Keeps.modEvidence (s : State) (e : Evidence) (head : e.head = s.evidence.head)
    (fifo : e.fifo.length ≤ s.evidence.fifo.length) : Keeps R s { s with evidence := e } :=
  ⟨rfl, id, rfl, rfl, fun _ x _ => x.same_refl _, id, fun k => ⟨k.ports, fifo.trans k.fifo, k.holds⟩, fun _ h _ => h, head⟩

theorem Keeps.modPage (s : State) (p : Nat) (f : PageEntry → PageEntry) : Keeps R s (s.modPage p f) :=
  ⟨rfl, id, rfl, rfl, fun _ x _ => x.same_refl _, fun c => ⟨c.1, directoryWf_setPage c.2 _ _⟩,
    fun k => ⟨k.ports, k.fifo, k.holds⟩, fun _ h _ => h, rfl⟩

theorem Keeps.foldl {α : Type} {f : State → α → State} (xs : List α) (h : ∀ u : State, ∀ a ∈ xs, Keeps R u (f u a)) (s : State) :
    Keeps R s (xs.foldl f s) := by
  induction xs generalizing s with
  | nil => exact .refl s
  | cons x xs ih =>
    exact (h s x List.mem_cons_self).trans (ih (fun u a ha => h u a (List.mem_cons_of_mem _ ha)) _)

/-! ### Ports (chapter 10) -/

theorem LinkPort.Fits.respond {p : LinkPort} (h : p.Fits) (tag : Tag) (code : Byte) (status : Status) (body : Body) :
    (p.respond tag code status body).Fits :=
  ⟨(List.length_erase_le).trans h.outstanding, h.deferred, h.givenUp⟩

theorem Keeps.respond (s : State) (l : Link) (tag : Tag) (code : Byte) (status : Status) (body : Body) :
    Keeps R s (s.respond l tag code status body) :=
  .modLink s l fun h => h.respond _ _ _ _

theorem Keeps.answer (s : State) (l : Link) (r : Request) (status : Status) (body : Body) :
    Keeps R s (s.answer l r status body) :=
  .respond s l _ _ _ _

theorem Keeps.takeRequest (s : State) (l : Link) : Keeps R s (s.takeRequest l) :=
  .modLink s l fun h => ⟨h.1, h.2, h.3⟩

theorem Keeps.raiseLinkError (s : State) (l : Link) (r : LinkErrorReason) : Keeps R s (s.raiseLinkError l r) :=
  .modLink s l fun h => ⟨h.1, h.2, h.3⟩

theorem Keeps.raiseSettings (s : State) (c : SettingsCause) : Keeps R s (s.raiseSettings c) :=
  .modLinks s fun _ h => ⟨h.1, h.2, h.3⟩

theorem Keeps.accept (s : State) (l : Link) (r : Request) : Keeps R s (s.accept l r) := by
  unfold State.accept
  split
  · exact .raiseLinkError s l _
  · split
    · exact .raiseLinkError s l _
    · rename_i room
      refine .modLink s l fun h => ⟨?_, h.2, h.3⟩
      simp only [List.length_append, List.length_cons, List.length_nil]
      omega

theorem Keeps.receive (s : State) (l : Link) (bytes : Bytes) : Keeps R s (s.receive l bytes) := by
  unfold State.receive
  split
  · exact .raiseLinkError s l _
  · exact .accept s l _

theorem LinkPort.Fits.afterReset (p : LinkPort) {keep : List Tag} (h : keep.length ≤ 8) (mask : Mask) :
    (p.afterReset keep mask).Fits :=
  ⟨h, Nat.zero_le _, Nat.le_refl _⟩

theorem Burst.giveUp_writes {l : Link} {b c : Burst} (h : b.giveUp l = c) (w : c.writes) : b = c := by
  cases b <;> subst h
  · rfl
  · rfl
  · exact w.elim

theorem Keeps.resetLink (s : State) (l : Link) {keep : List Tag} (small : keep.length ≤ 8) : Keeps R s (s.resetLink l keep) := by
  have fits : TablesFit s → TablesFit (s.resetLink l keep) := by
    intro k
    refine ⟨fun m => ?_, ?_, ?_⟩
    · have port : (s.resetLink l keep).link m = (s.links.modify (fun p => p.afterReset keep (s.defaultMask l)) l).get m := by
        cases l <;> rfl
      rw [port]
      by_cases same : m = l
      · subst same
        rw [PerLink.get_modify_same]
        exact LinkPort.Fits.afterReset _ small _
      · rw [PerLink.get_modify_of_ne _ _ same]
        exact k.ports m
    · cases l <;> exact k.fifo
    · cases l <;> exact k.holds
  refine ⟨by cases l <;> rfl, fun v => ?_, by cases l <;> rfl, ?_, fun o x _ => ?_, fun c => by cases l <;> exact c, fits,
    fun b h w => ?_, by cases l <;> rfl⟩
  · cases l with
    | automation => exact v
    | compliance =>
      refine ⟨v.1, v.2.1, fun x h => ?_⟩
      obtain ⟨y, hy, rfl⟩ := Option.map_eq_some_iff.mp h
      exact v.2.2 y hy
  · cases l with
    | automation => rfl
    | compliance => exact Option.isSome_map
  · cases l <;> exact x.same_refl _
  · obtain ⟨c, hc, given⟩ := Option.map_eq_some_iff.mp (show s.port.map (Burst.giveUp l) = some b by cases l <;> exact h)
    rw [hc, Burst.giveUp_writes given w]

theorem Keeps.setResetLine (s : State) (l : Link) (level : Bool) : Keeps R s (s.setResetLine l level) :=
  .modLink s l fun h => ⟨h.1, h.2, h.3⟩

/-! ### Deferred reads and pages (chapters 7 and 10) -/

theorem Keeps.timeOutDeferred (s : State) (l : Link) : Keeps R s (timeOutDeferred l s) := by
  unfold Machine.timeOutDeferred
  exact (Keeps.modLink s l fun h => ⟨h.1, (List.length_filter_le _ _).trans h.2, h.3⟩).trans
    ((Keeps.foldl _ (fun u _ _ => .respond u _ _ _ _ _) _).trans (.of_spreads (.useFree _ 1)))

theorem Keeps.tickDeferred (s : State) (l : Link) : Keeps R s (tickDeferred l s) := by
  refine Keeps.trans (t := ageDeferred l s) (.modLink s l fun h => ⟨h.1, ?_, h.3⟩) (.timeOutDeferred _ l)
  rw [List.length_map]
  exact h.2

theorem Keeps.abortDeferred (s : State) (l : Link) : Keeps R s (abortDeferred l s) := by
  unfold Machine.abortDeferred
  exact (Keeps.modLink s l fun h => ⟨h.1, Nat.zero_le _, h.3⟩).trans
    ((Keeps.foldl _ (fun u _ _ => .respond u _ _ _ _ _) _).trans (.of_spreads (.useFree _ 1)))

theorem LinkPort.Fits.addFetch {p : LinkPort} (h : p.Fits) (f : Fetch) (held : Option Tag) :
    LinkPort.Fits { p with fetches := p.fetches ++ [f], held := held } := by
  refine ⟨h.1, h.2, h.3.trans ?_⟩
  simp

theorem Keeps.completeDeferred (s : State) (l : Link) (page : Nat) (e : PageEntry) (closing : Bool) (d : Deferred) :
    Keeps R s (completeDeferred l page e closing s d) := by
  unfold Machine.completeDeferred
  split
  · exact .modLink s l fun h => h.addFetch _ _
  · split
    · exact .modLink s l fun h => h.addFetch _ _
    · exact .respond s l _ _ _ _

theorem Keeps.reportTo (s : State) (l : Link) (o : OutletId) (page : Nat) (e : PageEntry) (closing : Bool) :
    Keeps R s (reportTo l o page e closing s) := by
  unfold Machine.reportTo
  exact (Keeps.modLink s l fun h => ⟨h.1, (List.length_filter_le _ _).trans h.2, h.3⟩).trans
    ((Keeps.foldl _ (fun u d _ => .completeDeferred u l page e closing d) _).trans (.of_spreads (.useFree _ 1)))

theorem Keeps.report (s : State) (o : OutletId) (page : Nat) (closing : Bool) : Keeps R s (report o page closing s) :=
  (Keeps.reportTo s _ _ _ _ _).trans (.reportTo _ _ _ _ _ _)

theorem Keeps.closePage (s : State) (o : OutletId) : Keeps R s (s.closePage o) := by
  unfold State.closePage
  split
  · exact (Keeps.modPage s _ _).trans (.report _ _ _ _)
  · exact .refl s

theorem Keeps.modWriter (s : State) {o : OutletId} (h : R o .writer) (f : Writer → Writer) : Keeps R s (s.modWriter o f) :=
  .of_spreads (.modWriter s h f)

theorem Keeps.openFor (s : State) {o : OutletId} (h : R o .writer) (p : Nat) : Keeps R s (s.openFor o p) := by
  unfold State.openFor
  have sequence : Keeps R s { s with pageSeq := nextSequence s.pageSeq } :=
    ⟨rfl, id, rfl, rfl, fun _ x _ => x.same_refl _, id, fun k => ⟨k.ports, k.fifo, k.holds⟩, fun _ h _ => h, rfl⟩
  exact (sequence.trans (.modPage _ _ _)).trans (.modWriter _ h _)

theorem Keeps.suspend (s : State) {o : OutletId} (h : R o .writer) (r : FrameRecord) : Keeps R s (s.suspend o r) :=
  .of_spreads (((Spreads.reportDrops s h _).trans (.modWriter _ h _)).trans (.reportRecord _ _ _ _))

theorem Keeps.pageAdvance (s : State) {o : OutletId} (h : R o .writer) (r : FrameRecord) : Keeps R s (s.pageAdvance o r) := by
  unfold State.pageAdvance
  dsimp only
  refine (Keeps.closePage s o).trans ?_
  split
  · exact .openFor _ h _
  · split
    · exact (Keeps.of_spreads (.reportRecord _ _ _ _)).trans (.openFor _ h _)
    · exact .suspend _ h r

theorem Keeps.placeRecord (s : State) {o : OutletId} (h : R o .writer) (r : FrameRecord) : Keeps R s (s.placeRecord o r) := by
  unfold State.placeRecord
  split
  · split
    · exact .modWriter s h _
    · exact .pageAdvance s h r
  · exact .pageAdvance s h r

theorem Keeps.reachMark (s : State) {o : OutletId} (h : R o .writer) : Keeps R s (s.reachMark o) :=
  (Keeps.closePage s o).trans (.modWriter _ h _)

/-! ### Requests (R163) -/

theorem Keeps.withArgs {α : Type} {l : Link} {r : Request} {args : Option α} {s : State} {f : α → State}
    (h : ∀ a : α, args = some a → Keeps R s (f a)) : Keeps R s (withArgs l r args s f) := by
  cases args with
  | none => exact .answer s l r _ _
  | some a => exact h a rfl

theorem Keeps.serve {l : Link} {code : Byte} {allowed : Bool} {owner : Request → State → State} {s t : State}
    (h : serve l code allowed owner s = .next t) (keeps : ∀ (r : Request) (u : State), Keeps R u (owner r u)) : Keeps R s t := by
  unfold Machine.serve at h
  split at h
  · cases h
    exact .refl s
  · split at h
    · cases h
      exact .refl s
    · split at h
      · cases h
        exact ((Keeps.takeRequest s l).trans (.answer _ _ _ _ _)).trans (.refresh _)
      · split at h
        · cases h
          exact ((Keeps.takeRequest s l).trans (.answer _ _ _ _ _)).trans (.refresh _)
        · cases h
          exact ((Keeps.takeRequest s l).trans (keeps _ _)).trans (.refresh _)

theorem Keeps.when {c : Bool} {u s t : State} (h : when c u s = .next t) (keeps : c = true → Keeps R s u) : Keeps R s t := by
  rw [when_next] at h
  cases h
  split
  · rename_i hc
    exact (keeps hc).trans (.refresh u)
  · exact .refl s

theorem Keeps.idle {s t : State} (h : idle s = .next t) : Keeps R s t := by
  cases h
  exact .refl s

theorem Keeps.done {s u t : State} (h : done u = .next t) (keeps : Keeps R s u) : Keeps R s t := by
  cases h
  exact keeps.trans (.refresh u)

theorem Keeps.answered_only {l : Link} {r : Request} {α : Type} {args : Option α} {s : State} {status : α → Status}
    {body : α → Body} : Keeps R s (Machine.withArgs l r args s fun a => s.answer l r (status a) (body a)) :=
  .withArgs fun _ _ => .answer s l r _ _

theorem Keeps.declareSegment (s : State) (l : Link) (r : Request) (h : ∀ o, R o .sched) : Keeps R s (declareSegment l r s) := by
  refine .withArgs fun a _ => ?_
  dsimp only
  split
  · exact .answer s l r _ _
  · split
    · exact .answer s l r _ _
    · refine Keeps.trans ?_ (.answer _ l r _ _)
      split
      · exact .of_spreads ((Spreads.modSched s (h _) _).trans (.evaluate _ (h _) _))
      · exact .of_spreads (.modSched s (h _) _)

theorem Keeps.withdrawSegment (s : State) (l : Link) (r : Request) (h : ∀ o, R o .sched) : Keeps R s (withdrawSegment l r s) := by
  refine .withArgs fun a _ => ?_
  dsimp only
  split
  · refine Keeps.trans ?_ (.answer _ l r _ _)
    unfold State.withdraw
    dsimp only
    split
    · exact .of_spreads ((Spreads.modSched s (h _) _).trans (.evaluate _ (h _) _))
    · exact .of_spreads (.modSched s (h _) _)
  · split
    · exact .answer s l r _ _
    · exact .answer s l r _ _

theorem Keeps.takeSegment (s : State) (l : Link) (r : Request) (h : ∀ o, R o .sched) : Keeps R s (takeSegment l r s) := by
  refine .withArgs fun o _ => ?_
  dsimp only
  split
  · exact .answer s l r _ _
  · split
    · exact .answer s l r _ _
    · exact (Keeps.of_spreads (.armHead s (h _) _ _ _ _)).trans (.answer _ l r _ _)

theorem Keeps.endSegment (s : State) (l : Link) (r : Request) (h : ∀ o, R o .sched) : Keeps R s (endSegment l r s) := by
  refine .withArgs fun o _ => ?_
  dsimp only
  split
  · exact .answer s l r _ _
  · exact (Keeps.of_spreads (.modSched s (h _) _)).trans (.answer _ l r _ _)

theorem Keeps.setTime (s : State) (l : Link) (r : Request) : Keeps R s (setTime l r s) := by
  refine .withArgs fun seconds _ => ?_
  split
  · exact .answer s l r _ _
  · exact .modTime s _

theorem Keeps.readCues (s : State) (l : Link) (r : Request) : Keeps R s (readCues l r s) :=
  .withArgs fun _ _ => (Keeps.foldl _ (fun u _ _ => .setCue u _ _) s).trans (.answer _ l r _ _)

theorem Keeps.stageProfile (s : State) (l : Link) (r : Request) : Keeps R s (stageProfile l r s) := by
  refine .withArgs fun p _ => ?_
  split
  · exact .answer s l r _ _
  · have installed : ∀ v : ProfileStore, Keeps R s { s with profiles := v } := fun v =>
      ⟨rfl, id, rfl, rfl, fun _ x _ => x.same_refl _, id, fun k => ⟨k.ports, k.fifo, k.holds⟩, fun _ h _ => h, rfl⟩
    exact ((installed _).trans (.of_spreads (.create _ _))).trans (.answer _ l r _ _)

theorem Keeps.readPage (s : State) (l : Link) (r : Request) : Keeps R s (readPage l r s) := by
  refine .withArgs fun a _ => ?_
  split
  · exact .answer s l r _ _
  · unfold readFound
    have fetch : ∀ (page length : Nat) (short : Bool), Keeps R s (s.fetchPage l r a page length short) :=
      fun _ _ _ => .modLink s l fun h => h.addFetch _ _
    split
    · exact fetch _ _ _
    · split
      · unfold deferRead
        split
        · exact .answer s l r _ _
        · split
          · exact .answer s l r _ _
          · rename_i room
            refine .modLink s l fun h => ⟨h.1, ?_, h.3⟩
            simp only [List.length_append, List.length_cons, List.length_nil]
            omega
      · split
        · exact fetch _ _ _
        · exact .answer s l r _ _

theorem Keeps.releasePage (s : State) (l : Link) (r : Request) : Keeps R s (releasePage l r s) := by
  refine .withArgs fun a _ => ?_
  split
  · exact .answer s l r _ _
  · split
    · exact (Keeps.modPage s _ _).trans (.answer _ l r _ _)
    all_goals exact .answer s l r _ _

theorem Keeps.placeHold (s : State) (l : Link) (r : Request) : Keeps R s (placeHold l r s) := by
  refine .withArgs fun a _ => ?_
  dsimp only
  split
  · exact .answer s l r _ _
  · exact .answer s l r _ _
  · exact (Keeps.of_spreads (.place s _ _ _ _)).trans (.answer _ l r _ _)

theorem Keeps.releaseHold (s : State) (l : Link) (r : Request) : Keeps R s (releaseHold l r s) := by
  refine .withArgs fun n _ => ?_
  split
  · exact .answer s l r _ _
  · refine Keeps.trans ?_ (.answer _ l r _ _)
    unfold State.releaseHold
    have filtered : ∀ (u : State) (p : Hold → Bool), Keeps R u { u with holds := u.holds.filter p } := fun u p =>
      ⟨rfl, id, rfl, rfl, fun _ x _ => x.same_refl _, id,
        fun k => ⟨k.ports, k.fifo, (List.length_filter_le _ _).trans k.holds⟩, fun _ h _ => h, rfl⟩
    have lowered : ∀ ps : List Nat, Keeps R s (s.modPages ps fun e => { e with holdCount := e.holdCount - 1 }) := fun ps =>
      Keeps.foldl (f := fun s p => s.modPage p fun e => { e with holdCount := e.holdCount - 1 }) ps
        (fun u p _ => .modPage u p _) s
    exact ((lowered _).trans (filtered _ _)).trans (.of_spreads (.create _ _))

theorem Keeps.answerRead (s : State) (l : Link) (tag : Tag) (status : Status) (first : Option (BitVec 32)) (records : List Bytes) :
    Keeps R s (s.answerRead l tag status first records) := by
  unfold State.answerRead
  cases l with
  | automation => exact (Keeps.respond s _ _ _ _ _).trans (.modEvidence _ _ rfl (Nat.le_refl _))
  | compliance => exact .respond s _ _ _ _ _

theorem Keeps.readEvidence (s : State) (l : Link) (r : Request) : Keeps R s (readEvidence l r s) := by
  refine .withArgs fun a _ => ?_
  split
  · exact .answer s l r _ _
  · dsimp only
    split
    · exact .answerRead s l _ _ _ _
    · exact .modLink s l fun h => h.addFetch _ _

theorem Evidence.acknowledge_fifo (e : Evidence) (n : Nat) : (e.acknowledge n).fifo = e.fifo := by
  unfold Evidence.acknowledge
  dsimp only
  split <;> rfl

theorem Keeps.acknowledgeEvidence (s : State) (l : Link) (r : Request) : Keeps R s (acknowledgeEvidence l r s) := by
  refine .withArgs fun a _ => .ite (.answer s l r _ _) (.ite (.answer s l r _ _) ?_)
  exact (Keeps.modEvidence s _ (s.evidence.acknowledge_answered a.1).2.1
    (by rw [Evidence.acknowledge_fifo])).trans (.answer _ l r _ _)

theorem judgeImage_valid {bytes : Bytes} {g : Image} (h : judgeImage bytes = .ok g) : g.refusal = none := by
  unfold judgeImage at h
  split at h
  · cases h
  · split at h
    · cases h
    · cases h
      assumption

theorem Keeps.saveSettings (s : State) (l : Link) (r : Request) : Keeps R s (saveSettings l r s) := by
  unfold Machine.saveSettings
  split
  · exact .answer s l r _ _
  · split
    · exact .answer s l r _ _
    · rename_i g good _
      refine ⟨rfl, fun v => ⟨v.1, v.2.1, fun w hw => ?_⟩, rfl, rfl, fun _ x _ => x.same_refl _, id,
        fun k => ⟨k.ports, k.fifo, k.holds⟩, fun _ h _ => h, rfl⟩
      cases hw
      exact judgeImage_valid good

theorem Keeps.completeSave {s : State} {v : Save} (saving : s.save = some v) : Keeps R s (s.completeSave v) := by
  unfold State.completeSave
  have replaced : Keeps R s { s with flash := .stored v.bytes (crc32 v.bytes), imageCopy := v.image, save := none } :=
    ⟨rfl, fun valid => ⟨valid.1, valid.2.2 v saving, fun w hw => by cases hw⟩, rfl, rfl, fun _ x _ => x.same_refl _, id,
      fun k => ⟨k.ports, k.fifo, k.holds⟩, fun _ h _ => h, rfl⟩
  dsimp only
  split
  · exact (replaced.trans (.raiseSettings _ _)).trans (.respond _ _ _ _ _ _)
  · exact replaced.trans (.raiseSettings _ _)

theorem Keeps.readMeter (s : State) (l : Link) (r : Request) : Keeps R s (readMeter l r s) :=
  .withArgs fun _ _ => (Keeps.answer s l r _ _).trans (.of_spreads (.useFree _ 2))

theorem Keeps.clearFlags (s : State) (l : Link) (r : Request) : Keeps R s (clearFlags l r s) :=
  .withArgs fun _ _ => (Keeps.modLink s l fun h => ⟨h.1, h.2, h.3⟩).trans (.answer _ l r _ _)

theorem Keeps.setMask (s : State) (l : Link) (r : Request) : Keeps R s (setMask l r s) :=
  .withArgs fun _ _ => (Keeps.modLink s l fun h => ⟨h.1, h.2, h.3⟩).trans (.answer _ l r _ _)

theorem Keeps.resetRequest (s : State) (l : Link) (r : Request) : Keeps R s (resetRequest l r s) :=
  .withArgs fun _ _ => (Keeps.resetLink s l (by simp)).trans (.answer _ l r _ _)

/-! ### Cue edges (R28, R41) -/

theorem Keeps.acceptEdge (s : State) (k : CueLine) (t : Instant) (h : ∀ o, R o .sched) : Keeps R s (s.acceptEdge k t) := by
  unfold State.acceptEdge
  dsimp only
  have captured := (Keeps.setCue (R := R) s k ((s.cue k).capture s.time.air t)).trans (.of_spreads (.raiseBoth _ .cue))
  split
  · exact captured.trans (.of_spreads (.create _ _))
  · exact captured.trans (.of_spreads (.foldl _ (fun u o _ => .cueTrigger u (h o) _ _) _))

/-! ### Frame ticks and steps of air time (chapter 2) -/

/-- What a frame tick and a step of air time do: they change the outlets by three operations, and beside them nothing that
`Keeps` speaks of. A relation that is closed so holds across whatever the reference inputs bring. -/
structure TickClosed (Q : State → State → Prop) : Prop where
  refl : ∀ s : State, Q s s
  trans : ∀ {s t u : State}, Q s t → Q t u → Q s u
  same : ∀ {s t : State}, Keeps (fun _ _ => False) s t → Q s t
  intake : ∀ (s : State) (o : OutletId), Q s (s.tickIntake o).1
  timed : ∀ (s : State) (o : OutletId) (c : LateCause), Q s (s.testTimed o c).1
  step : ∀ (s : State) (o : OutletId), Q s (s.stepOutlet o).1

section
variable {Q : State → State → Prop} (h : TickClosed Q)
include h

theorem TickClosed.eachDraft {f : State → OutletId → State × List Draft} (hf : ∀ (u : State) (o : OutletId), Q u (f u o).1)
    (s : State) : Q s (s.eachDraft f).1 := by
  have key : ∀ (os : List OutletId) (p : State × List Draft), Q s p.1 →
      Q s (os.foldl (fun p o => ((f p.1 o).1, p.2 ++ (f p.1 o).2)) p).1 := by
    intro os
    induction os with
    | nil => exact fun _ q => q
    | cons o os ih => exact fun p q => ih _ (h.trans q (hf _ _))
  exact key _ _ (h.refl s)

theorem TickClosed.tick (s : State) : Q s s.tick := by
  unfold State.tick
  dsimp only
  have intake : Q s ((s.modTime TimeBase.tick).eachDraft State.tickIntake).1 :=
    h.trans (h.same (.modTime s _)) (h.eachDraft h.intake _)
  have timed := h.trans intake (h.eachDraft (f := fun s o => s.testTimed o .lateDeclare) (fun u o => h.timed u o .lateDeclare) _)
  exact h.trans timed (h.same (((Keeps.tickDeferred _ _).trans (.tickDeferred _ _)).trans (.of_spreads (.createAnyOrder _ _))))

theorem TickClosed.pulseTick (s : State) : Q s s.pulseTick := h.trans (h.tick s) (h.same (.modTime _ _))

theorem TickClosed.stepTime (s : State) (c : StepCause) (new : AirTime) (ref : RefState) : Q s (s.stepTime c new ref) := by
  unfold State.stepTime State.stepScheduler
  dsimp only
  exact h.trans (h.trans (h.same ((Keeps.modTime s _).trans (.of_spreads ((Spreads.create _ _).trans (.raiseBoth _ _)))))
    (h.eachDraft h.step _)) (h.same (.of_spreads (.createAnyOrder _ _)))

theorem TickClosed.answerSet (s : State) (p : PendingSet) (old : AirTime) (ref : RefState) : Q s (s.answerSet p old ref) :=
  h.same ((Keeps.modTime s _).trans (.respond _ _ _ _ _ _))

theorem TickClosed.applySet (s : State) (p : PendingSet) : Q s (s.applySet p) := by
  unfold State.applySet
  exact h.trans (h.trans (h.stepTime s _ _ _) (h.same (.modTime _ _))) (h.answerSet _ _ _ _)

theorem TickClosed.enterLocked (s : State) (step : Int) : Q s (s.enterLocked step) :=
  h.same ((Keeps.modTime s _).trans (.of_spreads ((Spreads.create _ _).trans (.raiseBoth _ _))))

theorem TickClosed.lockStep (s : State) : Q s s.lockStep := by
  unfold State.lockStep
  split
  · exact h.trans (h.trans (h.stepTime _ _ _ _) (h.enterLocked _ _)) (h.answerSet _ _ _ _)
  · dsimp only
    split
    · exact h.enterLocked _ _
    · exact h.trans (h.stepTime _ _ _ _) (h.enterLocked _ _)

theorem TickClosed.lock (s : State) : Q s s.lock := by
  unfold State.lock
  exact h.trans (h.trans (h.same (.modTime s _)) (h.pulseTick _)) (h.lockStep _)

theorem TickClosed.markPulse (s : State) (ticked : Bool) : Q s (s.markPulse ticked) := by
  unfold State.markPulse
  split
  · exact h.refl s
  · split
    · exact h.lock s
    · exact h.refl s
  · split
    · exact h.refl s
    · refine h.trans ?_ (h.applySet _ _)
      split
      · exact h.refl s
      · exact h.pulseTick s

theorem TickClosed.acceptPulse (s : State) (t : Instant) (wellSpaced : Bool) : Q s (s.acceptPulse t wellSpaced) := by
  have noted := fun f : TimeBase → TimeBase => h.same (.modTime s f)
  unfold State.acceptPulse
  dsimp only
  split <;> split
  · exact h.trans (h.trans (noted _) (h.pulseTick _)) (h.markPulse _ _)
  · exact h.trans (noted _) (h.markPulse _ _)
  · exact h.trans (noted _) (h.pulseTick _)
  · exact noted _

theorem TickClosed.framePulse (s : State) (t : Instant) : Q s (s.framePulse t) := by
  unfold State.framePulse
  split
  · exact h.same (.modTime s _)
  · exact h.acceptPulse s t _
  · exact h.acceptPulse s t _

theorem TickClosed.missPulse (s : State) (t : Instant) : Q s (s.missPulse t) := by
  unfold State.missPulse
  dsimp only
  split
  · refine h.trans (h.same ?_) (h.tick _)
    exact ((Keeps.modTime s _).trans (.of_spreads (((Spreads.create _ _).trans (.raiseBoth _ _)).trans (.useFree _ 1)))).trans
      (.modTime _ _)
  · exact h.same (.modTime s _)

theorem TickClosed.settleWatchdog (s : State) (t : Instant) : Q s (s.settleWatchdog t) := by
  unfold State.settleWatchdog
  split
  · split
    · exact h.missPulse s _
    · exact h.refl s
  · exact h.refl s

theorem TickClosed.secondPulse (s : State) (t : Instant) : Q s (s.secondPulse t) := by
  have noted := fun f : TimeBase → TimeBase => h.same (.modTime s f)
  unfold State.secondPulse
  split
  · dsimp only
    split
    · exact h.trans (noted _) (h.markPulse _ _)
    · exact noted _
  · exact noted _

theorem TickClosed.expire (s : State) (t : Instant) : Q s (s.expire t) := by
  unfold State.expire
  dsimp only
  have ticked := fun f : TimeBase → TimeBase => h.trans (h.same (.modTime s f)) (h.tick _)
  split
  · split
    · exact h.trans (ticked _) (h.applySet _ _)
    · exact ticked _
  · exact ticked _

end

theorem Keeps.mono {S : OutletId → Part → Prop} {s t : State} (h : Keeps R s t) (le : ∀ (o : OutletId) (x : Part), R o x → S o x) :
    Keeps S s t :=
  { h with outlets := fun o x free => h.outlets o x fun r => free (le o x r) }

/-- A tick may change Intake, Scheduler, Subtitle Checker and Verdict Unit of the outlets. -/
theorem Keeps.tickClosed (h : ∀ (o : OutletId) (x : Part), x ≠ .loud → x ≠ .writer → R o x) : TickClosed (Keeps R) where
  refl := .refl
  trans := .trans
  same := fun k => k.mono nofun
  intake := fun s _ => .of_spreads (.tickIntake s (h _ _ nofun nofun) (h _ _ nofun nofun) (h _ _ nofun nofun) (h _ _ nofun nofun))
  timed := fun s _ c => .of_spreads (.testTimed s (h _ _ nofun nofun) c)
  step := fun s _ => .of_spreads (.stepOutlet s (h _ _ nofun nofun))

/-! ### Bursts on the record-memory port (R122, R128, R157) -/

/-- The port freed while no restart waits for it. -/
theorem Keeps.freePort {s : State} (h : s.restarting = none) : Keeps R s s.freePort := by
  have free : s.freePort = { s with port := none } := by
    unfold State.freePort State.resumeRestart
    simp [h]
  rw [free]
  exact ⟨rfl, id, rfl, rfl, fun _ x _ => x.same_refl _, id, fun k => ⟨k.ports, k.fifo, k.holds⟩, fun _ h _ => (by cases h), rfl⟩

theorem Keeps.storeBurst (s : State) (p : Placed) (r : FrameRecord) (n : Nat) : Keeps R s (s.storeBurst p r n) :=
  ⟨rfl, id, rfl, rfl, fun _ x _ => x.same_refl _, fun c => ⟨memoryWf_writeBytes c.1 _ _, c.2⟩,
    fun k => ⟨k.ports, k.fifo, k.holds⟩, fun _ h _ => h, rfl⟩

theorem Keeps.completeRecord (s : State) {o : OutletId} (h : R o .writer) (p : Placed) (r : FrameRecord) :
    Keeps R s (s.completeRecord o p r) :=
  ((Keeps.modPage s _ _).trans (.modWriter _ h _)).trans (.report _ _ _ _)

theorem Keeps.releaseLink (s : State) (l : Link) (tag : Tag) : Keeps R s (s.releaseLink l tag) :=
  .modLink s l fun h => ⟨h.1, h.2, h.3⟩

theorem Keeps.answerPage (s : State) (l : Link) (tag : Tag) (o : OutletId) (q : BitVec 32) (page offset length : Nat)
    (short : Bool) : Keeps R s (s.answerPage l tag o q page offset length short) := by
  unfold State.answerPage
  split <;> exact .respond s _ _ _ _ _

theorem Evidence.advanceCursor_spec (e : Evidence) (l : Link) (past : BitVec 32) :
    (e.advanceCursor l past).head = e.head ∧ (e.advanceCursor l past).fifo = e.fifo := by
  unfold Evidence.advanceCursor
  cases l with
  | automation => dsimp only; split <;> exact ⟨rfl, rfl⟩
  | compliance => exact ⟨rfl, rfl⟩

theorem Keeps.finishRead (s : State) (l : Link) (tag : Tag) (first : BitVec 32) (fixed asked : Nat) :
    Keeps R s (s.finishRead l tag first fixed asked) := by
  unfold State.finishRead
  dsimp only
  split
  · exact .answerRead s _ _ _ _ _
  · obtain ⟨head, fifo⟩ := s.evidence.advanceCursor_spec l
      (first + BitVec.ofNat 32 (min fixed (passedBy s.evidence.tail first)) +
        BitVec.ofNat 32 (fixed - min fixed (passedBy s.evidence.tail first)))
    exact (Keeps.modEvidence s _ head (by rw [fifo])).trans (.answerRead _ _ _ _ _ _)

end

end Sys2Proof.Machine
end

section
/-! How every command answers: with the attention lines evaluated afresh, or with the links and the evidence untouched. No command is
refused, and one alone can fault. -/

namespace Sys2Proof.Machine

/-- An answer in which no attention line can be wrong: the lines were evaluated last, or nothing they depend on has changed (R171). -/
inductive Settled (s : State) : Host.Outcome State Fault Refusal → Prop where
  | evaluated (u : State) : Settled s (.next u.refresh)
  | untouched (u : State) (links : u.links = s.links) (evidence : u.evidence = s.evidence) : Settled s (.next u)

theorem Settled.done (s u : State) : Settled s (done u) := .evaluated u

theorem Settled.idle (s : State) : Settled s (idle s) := .untouched s rfl rfl

theorem Settled.when (s : State) (c : Bool) (u : State) : Settled s (when c u s) := by
  unfold Machine.when
  split
  · exact .evaluated u
  · exact .idle s

theorem Settled.serve (s : State) (l : Link) (code : Byte) (allowed : Bool) (owner : Request → State → State) :
    Settled s (serve l code allowed owner s) := by
  unfold Machine.serve
  split
  · exact .idle s
  · split
    · exact .idle s
    · split
      · exact .evaluated _
      · split <;> exact .evaluated _

/-- A grant settles the lines, or is the one to a writer whose burst would reach past record memory. -/
theorem settled_grant (s : State) :
    Settled s (exec .arbiterGrant s) ∨
      ∃ (d : Decision) (o : OutletId) (p : Placed) (r : FrameRecord), exec .arbiterGrant s = .fault .beyondRecordMemory ∧
        s.decision = some d ∧ d.granted = .writer o ∧ (s.outlet o).writer.inProgress = some (p, r) ∧
          s.memorySize < p.address + burstOf p r := by
  show Settled s (execArbiterGrant s) ∨ ∃ (d : Decision) (o : OutletId) (p : Placed) (r : FrameRecord),
    execArbiterGrant s = _ ∧ _
  unfold execArbiterGrant
  split
  · cases decided : s.decision with
    | none => exact .inl (.idle s)
    | some d =>
      obtain ⟨granted, high, low⟩ := d
      cases granted with
      | evidence => exact .inl (.evaluated _)
      | reader l => exact .inl (.evaluated _)
      | writer o =>
        dsimp only [State.grant, State.grantWriter]
        split
        · exact .inl (.untouched _ rfl rfl)
        · rename_i p r placed
          split
          · exact .inr ⟨_, o, p, r, rfl, rfl, rfl, placed, by assumption⟩
          · exact .inl (.evaluated _)
  · exact .inl (.idle s)

/-- Every other command settles the lines. -/
theorem settled_exec (c : Instr) (s : State) (other : c ≠ .arbiterGrant) : Settled s (exec c s) := by
  cases c with
  | arbiterGrant => exact absurd rfl other
  | airBytesUndelimited o bytes => exact .idle s
  | airFrameArrival o bytes => exact .when ..
  | gapOpen o => exact .when ..
  | excursion o l stamp =>
    show Settled s (execExcursion o l stamp s)
    unfold execExcursion
    split
    · exact .idle s
    · exact .when ..
  | recordTake o =>
    show Settled s (execRecordTake o s)
    unfold execRecordTake
    split
    · exact .idle s
    · exact .done ..
    · exact .done ..
  | framePulse t => exact .when ..
  | secondPulse t => exact .when ..
  | missingPulse =>
    show Settled s (execMissingPulse s)
    unfold execMissingPulse
    split
    · exact .when ..
    · exact .idle s
  | localOscillatorExpiry =>
    show Settled s (execLocalOscillatorExpiry s)
    unfold execLocalOscillatorExpiry
    split
    · exact .when ..
    · exact .idle s
  | returnLost o => exact .when ..
  | cueEdge k t => exact .when ..
  | messageReceived l bytes => exact .when ..
  | linkBytesUndelimited l bytes => exact .when ..
  | responseSent l => exact .when ..
  | segDeclare l | segWithdraw l | segTake l | segEnd l | segList l | timeSet l | cueRead l | profileStage l | profileRead l
  | pageList l | pageRead l | pageRelease l | holdPlace l | holdRelease l | holdList l | evidRead l | evidAck l | settingsSave l
  | restart l | status l | meterRead l | flagsRead l | flagsClear l | maskSet l => exact .serve ..
  | linkReset l =>
    show Settled s (execLinkReset l s)
    unfold execLinkReset
    split
    · exact .idle s
    · split
      · exact .done ..
      · exact .idle s
  | linkResetLineRise l =>
    show Settled s (execLinkResetLineRise l s)
    unfold execLinkResetLineRise
    split
    · exact .idle s
    · split <;> exact .done ..
  | linkResetLineFall l => exact .when ..
  | recordWriteComplete =>
    show Settled s (execRecordWriteComplete s)
    unfold execRecordWriteComplete
    split
    · split <;> exact .done ..
    · exact .idle s
  | deferredReadTimeout l => exact .when ..
  | evidenceBurstComplete =>
    show Settled s (execEvidenceBurstComplete s)
    unfold execEvidenceBurstComplete
    split
    · exact .done ..
    · exact .idle s
  | pageReadFetchComplete =>
    show Settled s (execPageReadFetchComplete s)
    unfold execPageReadFetchComplete
    split
    · split <;> exact .done ..
    · exact .idle s
  | evidReadFetchComplete =>
    show Settled s (execEvidReadFetchComplete s)
    unfold execEvidReadFetchComplete
    split
    · split
      · exact .done ..
      · split <;> exact .done ..
    · exact .idle s
  | powerOn t => exact .done ..
  | settingsLoadComplete => exact .when ..
  | settingsSaveComplete =>
    show Settled s (execSettingsSaveComplete s)
    unfold execSettingsSaveComplete
    split
    · exact .when ..
    · exact .idle s
  | powerLoss => exact .when ..
  | unknownRequestCode l =>
    show Settled s (execUnknownRequestCode l s)
    unfold execUnknownRequestCode
    split
    · exact .idle s
    · split
      · exact .idle s
      · exact .done ..
  | recordBurstComplete =>
    show Settled s (execRecordBurstComplete s)
    unfold execRecordBurstComplete
    split
    · split <;> exact .done ..
    · exact .idle s

/-- A settled answer is a next state in which the lines are right where they were. -/
theorem Settled.next {s : State} {x : Host.Outcome State Fault Refusal} (h : Settled s x) :
    ∃ t : State, x = .next t ∧ (AttentionRight s → AttentionRight t) := by
  cases h with
  | evaluated u => exact ⟨u.refresh, rfl, fun _ => State.refresh_attention u⟩
  | untouched u links evidence =>
    refine ⟨u, rfl, fun right l => ?_⟩
    unfold State.link
    rw [links, evidence]
    exact right l

/-- What a step is, by the queue. -/
theorem step_cases (s : State) : step s = .next s ∨ ∃ (c : Instr) (rest : List Instr),
    s.pending = c :: rest ∧ step s = exec c { s with pending := rest } := by
  cases h : s.pending with
  | nil => exact .inl (step_nil h)
  | cons c rest => exact .inr ⟨c, rest, rfl, step_cons h⟩

/-- Settles O2: every command but a grant has a next state, and a grant can only fault. -/
theorem stepFaultsOnlyPastMemory : Obligations.StepFaultsOnlyPastMemory := by
  intro s
  obtain idles | ⟨c, rest, queue, taken⟩ := step_cases s
  · rw [idles]
    exact ⟨fun r => nofun, fun f => nofun⟩
  rw [taken]
  by_cases grant : c = .arbiterGrant
  · subst grant
    obtain settled | ⟨d, o, p, r, fault, decided, writer, placed, past⟩ := settled_grant { s with pending := rest }
    · obtain ⟨t, next, -⟩ := settled.next
      rw [next]
      exact ⟨fun r => nofun, fun f => nofun⟩
    · exact ⟨fun r => by rw [fault]; nofun, fun f _ => ⟨rest, d, o, p, r, queue, decided, writer, placed, past⟩⟩
  · obtain ⟨t, next, -⟩ := (settled_exec c { s with pending := rest } grant).next
    rw [next]
    exact ⟨fun r => nofun, fun f => nofun⟩

/-- Settles O3: a step evaluates the lines last, or changes nothing that they depend on. -/
theorem attentionKept : Obligations.AttentionKept := by
  intro s t right taken
  obtain idles | ⟨c, rest, -, same⟩ := step_cases s
  · cases idles.symm.trans taken
    exact right
  rw [same] at taken
  have settled : Settled { s with pending := rest } (exec c { s with pending := rest }) := by
    by_cases grant : c = .arbiterGrant
    · subst grant
      obtain settled | ⟨d, o, p, r, fault, -⟩ := settled_grant { s with pending := rest }
      · exact settled
      · cases fault.symm.trans taken
    · exact settled_exec c _ grant
  obtain ⟨u, next, kept⟩ := settled.next
  cases next.symm.trans taken
  exact kept right

end Sys2Proof.Machine
end

section
/-! The arbiter's rotations (R130, R131): where a search stops, and what the decision is by the two searches. -/

namespace Sys2Proof.Machine

/-! ### One rotation -/

/-- The first place of a range where a search succeeds. -/
theorem findSome?_range_eq_some {β : Type} {f : Nat → Option β} {n : Nat} {b : β} (h : (List.range n).findSome? f = some b) :
    ∃ i : Nat, i < n ∧ f i = some b ∧ ∀ j : Nat, j < i → f j = none := by
  obtain ⟨before, i, after, split, found, missed⟩ := List.findSome?_eq_some_iff.mp h
  have size : n = before.length + (after.length + 1) := by simpa using congrArg List.length split
  have place : ∀ j : Nat, j < n → (before ++ i :: after)[j]? = some j := fun j hj => by
    rw [← split, List.getElem?_range hj]
  have at_i : i = before.length := by
    simpa using place before.length (by omega)
  refine ⟨i, by omega, found, fun j hj => missed j ?_⟩
  have here := place j (by omega)
  rw [List.getElem?_append_left (by omega)] at here
  exact List.mem_of_getElem? here

/-- Every place of a rotation is reached from a position. -/
theorem rotation_reaches (position : Nat) {k n : Nat} (h : k < n) : ∃ i : Nat, i < n ∧ (position + i) % n = k := by
  refine ⟨(k + n - position % n) % n, Nat.mod_lt _ (by omega), ?_⟩
  have below : position % n < n := Nat.mod_lt _ (by omega)
  have whole : position + (k + n - position % n) = n * (position / n + 1) + k := by
    have split := Nat.div_add_mod position n
    rw [Nat.mul_add]
    omega
  rw [Nat.add_mod_mod, whole, Nat.mul_add_mod, Nat.mod_eq_of_lt h]

section
variable {α : Type} {p : α → Bool} {xs : List α} {position : Nat}

/-- Where a search stops, and what it has passed over (R131). -/
theorem searchRotation_eq_some {x : α} {n : Nat} (h : searchRotation p xs position = some (x, n)) :
    ∃ i : Nat, i < xs.length ∧ n = (position + i + 1) % xs.length ∧ xs[(position + i) % xs.length]? = some x ∧ p x = true ∧
      ∀ j : Nat, j < i → ∀ y : α, xs[(position + j) % xs.length]? = some y → p y = false := by
  unfold searchRotation at h
  rw [List.findSome?_map] at h
  obtain ⟨i, hi, found, missed⟩ := findSome?_range_eq_some h
  obtain ⟨y, here, stops⟩ := Option.bind_eq_some_iff.mp found
  split at stops
  · rename_i satisfied
    cases stops
    refine ⟨i, hi, by rw [Nat.mod_add_mod], here, satisfied, fun j hj z there => ?_⟩
    have none := missed j hj
    rw [Function.comp_apply, there, Option.bind_some] at none
    simpa using none
  · cases stops

/-- A search finds nothing only where nothing satisfies the test (R131). -/
theorem searchRotation_eq_none : searchRotation p xs position = none ↔ ∀ x ∈ xs, p x = false := by
  unfold searchRotation
  rw [List.findSome?_map, List.findSome?_eq_none_iff]
  constructor
  · intro missed x hx
    obtain ⟨k, hk, rfl⟩ := List.mem_iff_getElem.mp hx
    obtain ⟨i, hi, place⟩ := rotation_reaches position hk
    have none := missed i (List.mem_range.mpr hi)
    rw [Function.comp_apply, place, List.getElem?_eq_getElem hk, Option.bind_some] at none
    simpa using none
  · intro fails i _
    rw [Function.comp_apply, Option.bind_eq_none_iff]
    intro x hx
    simp [fails x (List.mem_of_getElem? hx)]

end

/-! ### The two rotations -/

theorem mem_requesters (q : Requester) : q ∈ requesters := by
  cases q with
  | writer o =>
    have listed : o ∈ allOutlets := by simp [allOutlets]
    simp [requesters, listed]
  | evidence => simp [requesters]
  | reader l => cases l <;> simp [requesters]

/-- The members of the LOW rotation (R130, R131). -/
theorem State.mem_lowRotation (s : State) (q : Requester) : q ∈ s.lowRotation ↔ s.inHigh q = false := by
  simp [State.lowRotation, mem_requesters]

/-- The members of the HIGH rotation (R130, R131). -/
theorem State.some_mem_highRotation (s : State) (q : Requester) : some q ∈ s.highRotation ↔ s.inHigh q = true := by
  unfold State.highRotation
  split <;> simp [mem_requesters]

theorem State.none_mem_highRotation (s : State) : none ∈ s.highRotation ↔ s.lowRotation ≠ [] := by
  unfold State.highRotation
  split <;> simp_all

/-- There is no decision exactly while nothing is requesting (R131). -/
theorem State.decision_eq_none (s : State) : s.decision = none ↔ ∀ q : Requester, s.requesting q = false := by
  have quiet : (∀ q : Requester, s.requesting q = false) ↔ ∀ m ∈ s.highRotation, s.stopsAt m = false := by
    constructor
    · intro all m _
      cases m with
      | some q => exact all q
      | none => exact List.any_eq_false.mpr fun q _ => by simp [all q]
    · intro all q
      cases group : s.inHigh q with
      | true => exact all (some q) ((s.some_mem_highRotation q).mpr group)
      | false =>
        have low := (s.mem_lowRotation q).mpr group
        have stops := all none (s.none_mem_highRotation.mpr (List.ne_nil_of_mem low))
        simpa using List.any_eq_false.mp stops q low
  rw [quiet, ← searchRotation_eq_none (position := s.highPos)]
  unfold State.decision
  split
  · simp [*]
  · simp [*]
  · rename_i pos found
    obtain ⟨-, -, -, -, stops, -⟩ := searchRotation_eq_some found
    obtain ⟨q, low, requests⟩ := List.any_eq_true.mp stops
    simp only [found, reduceCtorEq, iff_false, Option.map_eq_none_iff, searchRotation_eq_none]
    intro none
    simp [none q low] at requests

/-- The decision by the search of the HIGH rotation, and of the LOW where it stops at the LOW position (R131). -/
theorem State.decision_eq_some (s : State) {d : Decision} (h : s.decision = some d) :
    searchRotation s.stopsAt s.highRotation s.highPos = some (some d.granted, d.highPos) ∧ d.lowPos = s.lowPos ∨
      searchRotation s.stopsAt s.highRotation s.highPos = some (none, d.highPos) ∧
        searchRotation s.requesting s.lowRotation s.lowPos = some (d.granted, d.lowPos) := by
  unfold State.decision at h
  split at h
  · cases h
  · cases h
    exact .inl ⟨by assumption, rfl⟩
  · rename_i found
    obtain ⟨low, searched, rfl⟩ := Option.map_eq_some_iff.mp h
    exact .inr ⟨found, searched⟩

/-- Only a requester that is requesting is granted (R131). -/
theorem State.decision_requests (s : State) {d : Decision} (h : s.decision = some d) : s.requesting d.granted = true := by
  obtain ⟨high, -⟩ | ⟨-, low⟩ := s.decision_eq_some h
  · obtain ⟨-, -, -, -, stops, -⟩ := searchRotation_eq_some high
    exact stops
  · obtain ⟨-, -, -, -, requests, -⟩ := searchRotation_eq_some low
    exact requests

/-! ### Grants (R130) -/

/-- A port's change is what it makes of the port as it stands. -/
theorem State.modLink_congr (s : State) (l : Link) {f g : LinkPort → LinkPort} (h : f (s.link l) = g (s.link l)) :
    s.modLink l f = s.modLink l g := by
  cases l with
  | automation => exact congrArg (fun p => { s with links := { s.links with automation := p } }) h
  | compliance => exact congrArg (fun p => { s with links := { s.links with compliance := p } }) h

theorem exec_arbiterGrant_idle {s : State} (h : s.port.isSome = true ∨ s.decision = none) : exec .arbiterGrant s = .next s := by
  show execArbiterGrant s = .next s
  unfold execArbiterGrant
  obtain busy | quiet := h
  · rw [Option.isSome_iff_ne_none] at busy
    simp [busy, idle]
  · rw [quiet]
    split <;> rfl

theorem exec_arbiterGrant_of_decision {s : State} {d : Decision} (power : s.powered = true) (free : s.port = none)
    (decided : s.decision = some d) :
    exec .arbiterGrant s = State.grant { s with highPos := d.highPos, lowPos := d.lowPos } d.granted := by
  show execArbiterGrant s = _
  unfold execArbiterGrant
  rw [decided]
  simp [power, free]

/-- Settles O38: the decision is read off the two searches, and a grant is carried out as its requester's. -/
theorem grantsOneBurst : Obligations.GrantsOneBurst := by
  constructor
  · intro s all low high inHigh inLow
    have lows : low = s.lowRotation := rfl
    have highs : high = s.highRotation := by
      show _ ++ _ = _ ++ _
      rw [lows]
      cases s.lowRotation <;> rfl
    refine ⟨s.decision_eq_none, fun d decided => ⟨s.decision_requests decided, ?_⟩⟩
    have passes : ∀ j : Nat, (∀ m : Option Requester, s.highRotation[(s.highPos + j) % s.highRotation.length]? = some m →
        s.stopsAt m = false) → (∀ q : Requester, inHigh j = some (some q) → s.requesting q = false) ∧
          (inHigh j = some none → ∀ q ∈ low, s.requesting q = false) := by
      intro j missed
      rw [← highs] at missed
      refine ⟨fun q there => missed _ there, fun there q hq => ?_⟩
      simpa using List.any_eq_false.mp (missed none there) q (lows ▸ hq)
    obtain ⟨searched, stays⟩ | ⟨searched, below⟩ := s.decision_eq_some decided
    · obtain ⟨i, bound, position, found, -, missed⟩ := searchRotation_eq_some searched
      rw [← highs] at bound position found
      exact ⟨i, bound, position, fun j hj => passes j (missed j hj), .inl ⟨found, stays⟩⟩
    · obtain ⟨i, bound, position, found, -, missed⟩ := searchRotation_eq_some searched
      obtain ⟨k, within, next, here, -, skipped⟩ := searchRotation_eq_some below
      rw [← highs] at bound position found
      exact ⟨i, bound, position, fun j hj => passes j (missed j hj), .inr ⟨found, k, within, here, next, skipped⟩⟩
  · intro s power
    refine ⟨exec_arbiterGrant_idle, fun d free decided => ⟨?_, fun l f rest reader waiting => ?_⟩⟩
    · intro o p r writer placed n fits
      rw [exec_arbiterGrant_of_decision power free decided, writer]
      have placed' : (State.outlet { s with highPos := d.highPos, lowPos := d.lowPos } o).writer.inProgress = some (p, r) := placed
      have inside : ¬State.memorySize { s with highPos := d.highPos, lowPos := d.lowPos } < p.address + burstOf p r :=
        Nat.not_lt.mpr fits
      simp only [State.grant, State.grantWriter, placed', if_neg inside]
      rfl
    · rw [exec_arbiterGrant_of_decision power free decided, reader]
      have waiting' : (State.link { s with highPos := d.highPos, lowPos := d.lowPos } l).fetches = f :: rest := waiting
      have taken : (State.link { s with highPos := d.highPos, lowPos := d.lowPos } l).fetches.tail = rest := by rw [waiting']; rfl
      simp only [State.grant, State.grantReader, waiting']
      exact congrArg Host.Outcome.next (congrArg State.refresh (State.modLink_congr _ l
        (congrArg (fun fs => { s.link l with fetches := fs, givenUp := (s.link l).givenUp - 1 }) taken)))

end Sys2Proof.Machine
end

section
/-! What each command does to the state, in eight kinds: most keep all but the parts of outlets in their reach, and a grant, the end
of a burst, a change of power, the end of loading and a restart do more. -/

namespace Sys2Proof.Machine

/-! ### The reach of a command -/

/-- The parts of which outlets a command may change, where it only keeps the rest (R14, R16, R41, R122). -/
def Instr.reach : Instr → OutletId → Part → Prop
  | .airFrameArrival p _, o, _ => o = p
  | .gapOpen p, o, x => o = p ∧ (x = .subs ∨ x = .verdict)
  | .excursion p _ _, o, x => o = p ∧ x = .verdict
  | .recordTake p, o, x => o = p ∧ x = .writer
  | .framePulse _, _, x => x ≠ .loud ∧ x ≠ .writer
  | .secondPulse _, _, x => x ≠ .loud ∧ x ≠ .writer
  | .missingPulse, _, x => x ≠ .loud ∧ x ≠ .writer
  | .localOscillatorExpiry, _, x => x ≠ .loud ∧ x ≠ .writer
  | .returnLost p, o, x => o = p ∧ x = .intake
  | .cueEdge _ _, _, x => x = .sched
  | .segDeclare _, _, x => x = .sched
  | .segWithdraw _, _, x => x = .sched
  | .segTake _, _, x => x = .sched
  | .segEnd _, _, x => x = .sched
  | _, _, _ => False

/-- What a tick may change is within the reach of the commands that bring one. -/
theorem tickReach : TickClosed (Keeps fun _ x => x ≠ .loud ∧ x ≠ .writer) := Keeps.tickClosed fun _ _ loud writer => ⟨loud, writer⟩

/-! ### The kinds of effect -/

/-- What the end of a burst leaves of an outlet's writer: the writer as it was, its record with more bytes written, or its FIFO
without the record whose last bytes these were (R122). -/
inductive WriterAfter (s : State) (o : OutletId) (w : Writer) : Prop where
  | same (h : w = (s.outlet o).writer)
  | goes {n : Nat} {last : Bool} {p : Placed} {r : FrameRecord} (busy : s.port = some (.record o n last))
    (placed : (s.outlet o).writer.inProgress = some (p, r))
    (h : w = { (s.outlet o).writer with placed := some { p with written := p.written + n } })
  | complete (h : w = { (s.outlet o).writer with placed := none, fifo := (s.outlet o).writer.fifo.tail })

/-- What a command that has a next state has done. -/
inductive Effect (c : Instr) (s : State) : State → Prop where
  /-- All but the parts in the command's reach is kept. -/
  | kept {t : State} (h : Keeps (Instr.reach c) s t) : Effect c s t
  /-- A burst that is none of the Evidence Unit ends, and a restart that waited for it goes on. -/
  | burst {u : State} (busy : s.port.isSome = true) (h : Keeps (fun _ x => x = .writer) s u)
    (writers : ∀ o : OutletId, WriterAfter s o (u.outlet o).writer) : Effect c s u.freePort.refresh
  /-- An evidence burst ends. -/
  | evidence {n : Nat} (hc : c = .evidenceBurstComplete) (busy : s.port = some (.evidence n)) :
    Effect c s (s.writeEvidence n).freePort.refresh
  /-- A writer is granted a burst. -/
  | writer {o : OutletId} {p : Placed} {r : FrameRecord} {high low : Nat} (hc : c = .arbiterGrant)
    (placed : (s.outlet o).writer.inProgress = some (p, r)) :
    Effect c s { s with highPos := high, lowPos := low,
                        port := some (.record o (burstOf p r) (decide (p.written + burstOf p r = r.bytes.length))) }.refresh
  /-- The Evidence Unit is granted a burst. -/
  | region {high low : Nat} (hc : c = .arbiterGrant) (loaded : s.loading = false) :
    Effect c s ({ s with highPos := high, lowPos := low }).grantEvidence.refresh
  /-- Power is applied, or lost. -/
  | power (t : Instant) (powered loading : Bool) : Effect c s { s.powerOnAt t with powered := powered, loading := loading }.refresh
  /-- Loading completes. -/
  | load (hc : c = .settingsLoadComplete) (loading : s.loading = true) : Effect c s s.completeLoad.refresh
  /-- A restart is taken. -/
  | restart {u : State} (h : Keeps (fun _ _ => False) s u) (loaded : u.loading = false) (ready : u.restarting = none) (reload : Bool)
    (tag : Tag) : Effect c s (u.runRestart reload tag).refresh

/-- A fetch ends: no writer takes part. -/
theorem Effect.fetched {c : Instr} {s u : State} (busy : s.port.isSome = true) (h : Keeps (fun _ _ => False) s u) :
    Effect c s u.freePort.refresh :=
  .burst busy (h.mono fun _ _ impossible => impossible.elim) fun o => .same (h.outlets o .writer id)

/-- A record's completion takes it off its own writer's FIFO. -/
theorem completeRecord_writer (s : State) (o q : OutletId) (p : Placed) (r : FrameRecord) :
    ((s.completeRecord o p r).outlet q).writer = (s.outlet q).writer ∨
      ((s.completeRecord o p r).outlet q).writer =
        { (s.outlet q).writer with placed := none, fifo := (s.outlet q).writer.fifo.tail } := by
  have reported : ((s.completeRecord o p r).outlet q).writer = _ :=
    (Keeps.report (R := fun _ _ => False) _ o p.page false).outlets q .writer id
  by_cases here : q = o
  · subst here
    exact .inr (reported.trans (congrArg Outlet.writer (State.outlet_modOutlet_same _ _ _)))
  · exact .inl (reported.trans (congrArg Outlet.writer (State.outlet_modOutlet_of_ne _ here _)))

/-! ### Single commands -/

theorem Keeps.positions {R : OutletId → Part → Prop} (s : State) (high low : Nat) :
    Keeps R s { s with highPos := high, lowPos := low } :=
  ⟨rfl, id, rfl, rfl, fun _ x _ => x.same_refl _, id, fun k => ⟨k.ports, k.fifo, k.holds⟩, fun _ h _ => h, rfl⟩

theorem Keeps.grantReader {R : OutletId → Part → Prop} (s : State) (l : Link) : Keeps R s (s.grantReader l) := by
  unfold State.grantReader
  split
  · exact .refl s
  · rename_i f rest waiting
    have granted : ∀ b : Burst, ¬b.writes → Keeps R s { s with port := some b } := fun b reads =>
      ⟨rfl, id, rfl, rfl, fun _ x _ => x.same_refl _, id, fun k => ⟨k.ports, k.fifo, k.holds⟩,
        fun c h w => absurd w (by cases h; exact reads), rfl⟩
    refine (granted (.read l f (decide (0 < (s.link l).givenUp))) id).trans (.modLink _ l fun h => ⟨h.1, h.2, ?_⟩)
    have given := h.3
    rw [List.length_tail]
    exact Nat.sub_le_sub_right given 1

/-- What a grant does, where it does not fault. -/
theorem grant_effect {s t : State} (h : exec .arbiterGrant s = .next t) : Effect .arbiterGrant s t := by
  replace h : execArbiterGrant s = .next t := h
  unfold execArbiterGrant at h
  split at h
  · cases decided : s.decision with
    | none =>
      rw [decided] at h
      exact .kept (.idle h)
    | some d =>
      rw [decided] at h
      obtain ⟨granted, high, low⟩ := d
      cases granted with
      | evidence =>
        have requests := s.decision_requests decided
        cases h
        refine .region rfl ?_
        simp only [State.requesting, Bool.and_eq_true, Bool.not_eq_true'] at requests
        exact requests.1
      | reader l => exact .kept (.done h ((Keeps.positions s high low).trans (.grantReader _ l)))
      | writer o =>
        dsimp only [State.grant, State.grantWriter] at h
        split at h
        · exact .kept ((Keeps.positions s high low).trans (.idle h))
        · rename_i p r placed
          split at h
          · cases h
          · cases h
            exact .writer rfl placed
  · exact .kept (.idle h)

/-- What a request for a restart does. -/
theorem restart_effect {l : Link} {s t : State} (h : exec (.restart l) s = .next t) : Effect (.restart l) s t := by
  replace h : serve l 19 (l = .compliance) (restartRequest l) s = .next t := h
  unfold serve at h
  split at h
  · exact .kept (.idle h)
  rename_i r _
  have taken : ∀ {R : OutletId → Part → Prop} (status : Status), Keeps R s ((s.takeRequest l).answer l r status .none) :=
    fun _ => (Keeps.takeRequest s l).trans (.answer _ l r _ _)
  split at h
  · exact .kept (.idle h)
  split at h
  · exact .kept (.done h (taken _))
  rename_i loaded
  split at h
  · exact .kept (.done h (taken _))
  unfold restartRequest withArgs at h
  split at h
  · dsimp only at h
    split at h
    · exact .kept (.done h (taken _))
    · rename_i ready
      cases h
      simp only [Bool.or_eq_true, not_or, Option.isSome_iff_ne_none, ne_eq, not_not] at ready
      refine .restart (.takeRequest s l) ?_ ready.1 _ _
      simpa using loaded
  · exact .kept (.done h (taken _))

/-! ### Every command -/

/-- What a command that is answered with a next state has done. -/
theorem exec_effect {c : Instr} {s t : State} (h : exec c s = .next t) : Effect c s t := by
  cases c with
  | arbiterGrant => exact grant_effect h
  | restart l => exact restart_effect h
  | airFrameArrival o bytes =>
    exact .kept (.when h fun _ => (Keeps.of_spreads (.useFree s 1)).trans (.of_spreads (.arrive _ (fun _ => rfl) _ _)))
  | airBytesUndelimited o bytes => exact .kept (.idle h)
  | gapOpen o =>
    refine .kept (.when h fun _ => .of_spreads ?_)
    split <;> exact .openGap s ⟨rfl, .inl rfl⟩ ⟨rfl, .inr rfl⟩ _ _
  | excursion o l stamp =>
    replace h : execExcursion o l stamp s = .next t := h
    unfold execExcursion at h
    split at h
    · exact .kept (.idle h)
    · exact .kept (.when h fun _ => .of_spreads (.excursion s ⟨rfl, rfl⟩ _ _ _))
  | recordTake o =>
    replace h : execRecordTake o s = .next t := h
    unfold execRecordTake at h
    split at h
    · exact .kept (.idle h)
    · exact .kept (.done h (.placeRecord s ⟨rfl, rfl⟩ _))
    · exact .kept (.done h (.reachMark s ⟨rfl, rfl⟩))
  | framePulse i => exact .kept (.when h fun _ => tickReach.trans (tickReach.settleWatchdog s i) (tickReach.framePulse _ i))
  | secondPulse i => exact .kept (.when h fun _ => tickReach.secondPulse s i)
  | missingPulse =>
    replace h : execMissingPulse s = .next t := h
    unfold execMissingPulse at h
    split at h
    · exact .kept (.when h fun _ => tickReach.missPulse s _)
    · exact .kept (.idle h)
  | localOscillatorExpiry =>
    replace h : execLocalOscillatorExpiry s = .next t := h
    unfold execLocalOscillatorExpiry at h
    split at h
    · exact .kept (.when h fun _ => tickReach.expire s _)
    · exact .kept (.idle h)
  | returnLost o =>
    exact .kept (.when h fun _ => .of_spreads ((Spreads.enterLost s ⟨rfl, rfl⟩).trans (.create _ _)))
  | cueEdge k i => exact .kept (.when h fun _ => .acceptEdge s k i fun _ => rfl)
  | messageReceived l bytes => exact .kept (.when h fun _ => .receive s l bytes)
  | linkBytesUndelimited l bytes => exact .kept (.when h fun _ => .raiseLinkError s l _)
  | responseSent l => exact .kept (.when h fun _ => .modLink s l fun fits => ⟨fits.1, fits.2, fits.3⟩)
  | segDeclare l => exact .kept (.serve h fun r u => .declareSegment u l r fun _ => rfl)
  | segWithdraw l => exact .kept (.serve h fun r u => .withdrawSegment u l r fun _ => rfl)
  | segTake l => exact .kept (.serve h fun r u => .takeSegment u l r fun _ => rfl)
  | segEnd l => exact .kept (.serve h fun r u => .endSegment u l r fun _ => rfl)
  | segList l => exact .kept (.serve h fun _ _ => .answered_only)
  | timeSet l => exact .kept (.serve h fun r u => .setTime u l r)
  | cueRead l => exact .kept (.serve h fun r u => .readCues u l r)
  | profileStage l => exact .kept (.serve h fun r u => .stageProfile u l r)
  | profileRead l => exact .kept (.serve h fun _ _ => .answered_only)
  | pageList l => exact .kept (.serve h fun _ _ => .answered_only)
  | pageRead l => exact .kept (.serve h fun r u => .readPage u l r)
  | pageRelease l => exact .kept (.serve h fun r u => .releasePage u l r)
  | holdPlace l => exact .kept (.serve h fun r u => .placeHold u l r)
  | holdRelease l => exact .kept (.serve h fun r u => .releaseHold u l r)
  | holdList l => exact .kept (.serve h fun _ _ => .answered_only)
  | evidRead l => exact .kept (.serve h fun r u => .readEvidence u l r)
  | evidAck l => exact .kept (.serve h fun r u => .acknowledgeEvidence u l r)
  | settingsSave l => exact .kept (.serve h fun r u => .saveSettings u l r)
  | status l => exact .kept (.serve h fun _ _ => .answered_only)
  | meterRead l => exact .kept (.serve h fun r u => .readMeter u l r)
  | flagsRead l => exact .kept (.serve h fun _ _ => .answered_only)
  | flagsClear l => exact .kept (.serve h fun r u => .clearFlags u l r)
  | maskSet l => exact .kept (.serve h fun r u => .setMask u l r)
  | linkReset l =>
    replace h : execLinkReset l s = .next t := h
    unfold execLinkReset at h
    split at h
    · exact .kept (.idle h)
    · split at h
      · exact .kept (.done h ((Keeps.takeRequest s l).trans (.resetRequest _ l _)))
      · exact .kept (.idle h)
  | linkResetLineRise l =>
    replace h : execLinkResetLineRise l s = .next t := h
    unfold execLinkResetLineRise at h
    split at h
    · exact .kept (.idle h)
    · split at h
      · exact .kept (.done h ((Keeps.resetLink s l (Nat.zero_le _)).trans (.setResetLine _ l _)))
      · exact .kept (.done h (.setResetLine s l _))
  | linkResetLineFall l => exact .kept (.when h fun _ => .setResetLine s l _)
  | recordWriteComplete =>
    replace h : execRecordWriteComplete s = .next t := h
    unfold execRecordWriteComplete at h
    split at h
    · rename_i busy
      have some : s.port.isSome = true := by rw [busy]; rfl
      split at h
      · cases h
        exact .burst some ((Keeps.storeBurst s _ _ _).trans (.completeRecord _ rfl _ _)) fun o =>
          (completeRecord_writer (s.storeBurst _ _ _) _ o _ _).elim (fun h => .same h) fun h => .complete h
      · cases h
        exact .burst some (.refl s) fun _ => .same rfl
    · exact .kept (.idle h)
  | recordBurstComplete =>
    replace h : execRecordBurstComplete s = .next t := h
    unfold execRecordBurstComplete at h
    split at h
    · rename_i o n busy
      have some : s.port.isSome = true := by rw [busy]; rfl
      split at h
      · cases h
        rename_i placed
        refine .burst some ((Keeps.storeBurst s _ _ _).trans (.modWriter _ rfl _)) fun p => ?_
        by_cases here : p = o
        · subst here
          exact .goes busy placed (congrArg Outlet.writer (State.outlet_modOutlet_same _ _ _))
        · exact .same (congrArg Outlet.writer (State.outlet_modOutlet_of_ne _ here _))
      · cases h
        exact .burst some (.refl s) fun _ => .same rfl
    · exact .kept (.idle h)
  | deferredReadTimeout l => exact .kept (.when h fun _ => .timeOutDeferred s l)
  | evidenceBurstComplete =>
    replace h : execEvidenceBurstComplete s = .next t := h
    unfold execEvidenceBurstComplete at h
    split at h
    · cases h
      exact .evidence rfl (by assumption)
    · exact .kept (.idle h)
  | pageReadFetchComplete =>
    replace h : execPageReadFetchComplete s = .next t := h
    unfold execPageReadFetchComplete at h
    split at h
    · rename_i busy
      have some : s.port.isSome = true := by rw [busy]; rfl
      split at h
      · cases h
        exact .burst some (.refl s) fun _ => .same rfl
      · cases h
        exact .fetched some ((Keeps.answerPage s _ _ _ _ _ _ _ _).trans (.releaseLink _ _ _))
    · exact .kept (.idle h)
  | evidReadFetchComplete =>
    replace h : execEvidReadFetchComplete s = .next t := h
    unfold execEvidReadFetchComplete at h
    split at h
    · rename_i busy
      have some : s.port.isSome = true := by rw [busy]; rfl
      split at h
      · cases h
        exact .burst some (.refl s) fun _ => .same rfl
      · split at h
        · cases h
          exact .fetched some ((Keeps.answerRead s _ _ _ _ _).trans (.releaseLink _ _ _))
        · cases h
          exact .fetched some ((Keeps.finishRead s _ _ _ _ _).trans (.releaseLink _ _ _))
    · exact .kept (.idle h)
  | powerOn i =>
    cases h
    exact .power i true true
  | powerLoss =>
    replace h : when s.powered { s.powerOnAt 0 with powered := false, loading := false } s = .next t := h
    rw [when_next] at h
    cases h
    split
    · exact .power 0 false false
    · exact .kept (.refl s)
  | settingsLoadComplete =>
    replace h : when (s.powered && s.loading) s.completeLoad s = .next t := h
    rw [when_next] at h
    cases h
    split
    · rename_i both
      exact .load rfl (Bool.and_eq_true_iff.mp both).2
    · exact .kept (.refl s)
  | settingsSaveComplete =>
    replace h : execSettingsSaveComplete s = .next t := h
    unfold execSettingsSaveComplete at h
    split at h
    · rename_i v saving
      exact .kept (.when h fun _ => .completeSave saving)
    · exact .kept (.idle h)
  | unknownRequestCode l =>
    replace h : execUnknownRequestCode l s = .next t := h
    unfold execUnknownRequestCode at h
    split at h
    · exact .kept (.idle h)
    · split at h
      · exact .kept (.idle h)
      · exact .kept (.done h ((Keeps.takeRequest s l).trans (.answer _ l _ _ _)))

end Sys2Proof.Machine
end

section
/-! What a restart, the end of loading, a change of power and the end of a burst leave of the state (R54, R133, R134, R177, R180). -/

namespace Sys2Proof.Machine

/-! ### The outlets' return and the closes (R11, R54) -/

theorem State.returnOutlets_outlet (s : State) (o : OutletId) :
    s.returnOutlets.outlet o =
      { s.outlet o with intake := { (s.outlet o).intake with state := returnedState (s.outletSettings o) } } := by
  simp [State.returnOutlets, State.outlet]

/-- Every outlet changed at once. -/
theorem Spreads.setOutlets {R : OutletId → Part → Prop} (s : State) (v : Vector Outlet 8)
    (h : ∀ (o : OutletId) (x : Part), ¬R o x → x.same (s.outlet o) v[o]) : Spreads R s { s with outlets := v } :=
  ⟨rfl, h, fun _ => rfl, fun _ _ h => h, fun _ => rfl, fun _ => Nat.le_refl _, id, ⟨[], (List.append_nil _).symm⟩, id, [], rfl⟩

/-- The closes of every outlet reach all but its intake and its writer (R54). -/
theorem State.closed_spreads (s : State) : Spreads (fun _ x => x ≠ .intake ∧ x ≠ .writer) s
    (((s.eachOutlet fun o s => s.finishPeaks o).formVerdicts allOutlets).closeOutlets.formVerdicts allOutlets) := by
  have settled : Spreads (fun _ x => x ≠ .intake ∧ x ≠ .writer) s
      ((s.eachOutlet fun o s => s.finishPeaks o).formVerdicts allOutlets) :=
    (Spreads.foldl (f := fun s o => s.finishPeaks o) allOutlets (fun u o _ => .finishPeaks u ⟨nofun, nofun⟩ ⟨nofun, nofun⟩) s).trans
      (.formVerdicts _ _ fun _ _ => ⟨nofun, nofun⟩)
  have closed : ∀ u : State, Spreads (fun _ x => x ≠ .intake ∧ x ≠ .writer) u u.closeOutlets := fun u =>
    (Spreads.useFree u 1).trans (.foldl (f := State.closeOutlet) _
      (fun v o _ => .closeOutlet v ⟨nofun, nofun⟩ ⟨nofun, nofun⟩ ⟨nofun, nofun⟩ ⟨nofun, nofun⟩) _)
  exact (settled.trans (closed _)).trans (.formVerdicts _ _ fun _ _ => ⟨nofun, nofun⟩)

/-- After the closes an outlet has its restart values, and its writer as it was (R15, R54). -/
theorem State.closeAll_outlet (s : State) (o : OutletId) : s.closeAll.outlet o =
    { intake := (s.outlet o).intake.restarted, sched := restSched, loud := restLoud, subs := restSubs, verdict := restVerdict,
      writer := (s.outlet o).writer } := by
  have judged := s.closed_spreads
  have mapped : s.closeAll.outlet o = (State.outlet (((s.eachOutlet fun o s => s.finishPeaks o).formVerdicts
      allOutlets).closeOutlets.formVerdicts allOutlets) o).restarted := by
    simp [State.closeAll, State.outlet]
  rw [mapped, Outlet.restarted, judged.intake fun h => h.1 rfl, judged.writer fun h => h.2 rfl]

theorem Spreads.closeAll (s : State) : Spreads (fun _ x => x ≠ .writer) s s.closeAll := by
  have judged : Spreads (fun _ x => x ≠ .writer) s _ :=
    { s.closed_spreads with outlets := fun o x free => s.closed_spreads.outlets o x fun h => free h.2 }
  refine judged.trans (.setOutlets _ _ fun o x free => ?_)
  cases not_not.mp free
  simp [Part.same, State.outlet, Outlet.restarted]

/-! ### The record store of a restart (R133, R134) -/

theorem Keeps.markWriter {R : OutletId → Part → Prop} (s : State) {o : OutletId} (h : R o .writer) : Keeps R s (s.markWriter o) := by
  unfold State.markWriter
  dsimp only
  split
  · split
    · exact (Keeps.modWriter s h _).trans (.reachMark _ h)
    · exact .modWriter s h _
  · split
    · exact .modWriter s h _
    · exact .refl s
  · exact .refl s

theorem Keeps.keepRecords (s : State) : Keeps (fun _ x => x = .writer) s s.keepRecords := by
  unfold State.keepRecords State.eachOutlet
  exact .foldl _ (fun u _ _ => .markWriter u rfl) s

theorem State.restartRecords_kept (s : State) : s.restartRecords false = { s.keepRecords with highPos := 0, lowPos := 0 } := rfl

theorem State.restartRecords_cleared (s : State) : s.restartRecords true = { s.clearRecords with highPos := 0, lowPos := 0 } := rfl

theorem State.clearRecords_outlet (s : State) (o : OutletId) :
    s.clearRecords.outlet o = { s.outlet o with writer := restWriter } := by
  simp [State.clearRecords, State.outlet, Outlet.clearWriter]

/-- An outlet after the record store is taken to its restart values: its writer alone can have changed. -/
theorem State.restartRecords_outlet (s : State) (cleared : Bool) (o : OutletId) :
    (s.restartRecords cleared).outlet o = { s.outlet o with writer := ((s.restartRecords cleared).outlet o).writer } := by
  cases cleared with
  | true =>
    rw [State.restartRecords_cleared]
    have cleared := s.clearRecords_outlet o
    generalize s.clearRecords = u at cleared
    refine (show State.outlet { u with highPos := 0, lowPos := 0 } o = u.outlet o from rfl).trans ?_
    rw [cleared]
    exact congrArg (fun t : Outlet => { s.outlet o with writer := t.writer }) cleared.symm
  | false =>
    rw [State.restartRecords_kept]
    have kept := (Keeps.keepRecords s).outlets o
    generalize s.keepRecords = u at kept
    refine Outlet.eq_of_same fun x => ?_
    cases x with
    | writer => rfl
    | intake => exact kept .intake nofun
    | sched => exact kept .sched nofun
    | loud => exact kept .loud nofun
    | subs => exact kept .subs nofun
    | verdict => exact kept .verdict nofun

theorem LinkPort.Fits.overtaken {p : LinkPort} (h : p.Fits) :
    LinkPort.Fits { p with fetches := p.fetches.map Fetch.overtaken } :=
  ⟨h.1, h.2, by rw [List.length_map]; exact h.3⟩

/-- The stores and tables after the record store is taken to its restart values. -/
theorem State.restartRecords_stores (s : State) (cleared : Bool) :
    (StoresCanonical s → StoresCanonical (s.restartRecords cleared)) ∧ (TablesFit s → TablesFit (s.restartRecords cleared)) := by
  cases cleared with
  | true =>
    refine ⟨fun c => ⟨c.1, rfl⟩, fun f => ⟨fun l => ?_, Nat.zero_le _, Nat.zero_le _⟩⟩
    have port : (s.restartRecords true).link l = { s.link l with fetches := (s.link l).fetches.map Fetch.overtaken } := by
      cases l <;> rfl
    rw [port]
    exact (f.ports l).overtaken
  | false =>
    rw [State.restartRecords_kept]
    have kept := Keeps.keepRecords s
    generalize s.keepRecords = u at kept
    refine ⟨fun c => kept.stores c, fun f => ?_⟩
    obtain ⟨ports, fifo, holds⟩ := kept.tables f
    exact ⟨ports, fifo, holds⟩

/-- What it leaves as it was: settings, images, loading and the port's burst. -/
theorem State.restartRecords_frame (s : State) (cleared : Bool) :
    (s.restartRecords cleared).settings = s.settings ∧ (ImagesValid s → ImagesValid (s.restartRecords cleared)) ∧
      (s.restartRecords cleared).loading = s.loading := by
  cases cleared with
  | true => exact ⟨rfl, id, rfl⟩
  | false =>
    rw [State.restartRecords_kept]
    have kept := Keeps.keepRecords s
    generalize s.keepRecords = u at kept
    exact ⟨kept.settings, kept.images, kept.loading⟩

/-! ### The rest of a restart (R180) -/

theorem Keeps.answerRestart {R : OutletId → Part → Prop} (s : State) (p : RestartProgress) (cleared : Bool) (q : BitVec 32) :
    Keeps R s (s.answerRestart p cleared q) := by
  unfold State.answerRestart
  split
  · exact .refl s
  · exact (Keeps.modLink s _ fun h => ⟨h.1, h.2, h.3⟩).trans (.respond _ _ _ _ _ _)

theorem State.answerRestart_outlet (s : State) (p : RestartProgress) (cleared : Bool) (q : BitVec 32) (o : OutletId) :
    (s.answerRestart p cleared q).outlet o = s.outlet o := by
  unfold State.answerRestart
  split <;> rfl

theorem State.answerRestart_frame (s : State) (p : RestartProgress) (cleared : Bool) (q : BitVec 32) :
    (s.answerRestart p cleared q).settings = s.settings ∧ (s.answerRestart p cleared q).restarting = s.restarting := by
  unfold State.answerRestart
  split <;> exact ⟨rfl, rfl⟩

/-- The image copy put in force keeps the images valid: its profile has no part in a refusal (R176, R181). -/
theorem State.applyReload_images {s : State} (reload : Bool) (h : ImagesValid s) : ImagesValid (s.applyReload reload) := by
  unfold State.applyReload
  split
  · exact ⟨h.2.1, h.2.1, h.2.2⟩
  · exact h

theorem State.applyReload_outlet (s : State) (reload : Bool) (o : OutletId) : (s.applyReload reload).outlet o = s.outlet o := by
  unfold State.applyReload
  split <;> rfl

theorem State.applyReload_rest (s : State) (reload : Bool) : { s.applyReload reload with settings := s.settings } = s := by
  unfold State.applyReload
  split <;> rfl

/-- The state of a restart just before its outlets return: the record store settled, and the RESTART record written (R180). -/
def State.restartWritten (s : State) (p : RestartProgress) (cleared : Bool) : State :=
  ((s.applyReload p.reload).restartRecords cleared).createNow none
    (.restart p.reload cleared p.notes (s.applyReload p.reload).waitingOutlets (s.removed cleared).1 (s.removed cleared).2 p.aborted)

theorem State.finishRestart_eq (s : State) (p : RestartProgress) (cleared : Bool) :
    s.finishRestart p cleared = ({ s.restartWritten p cleared with restarting := none }).returnOutlets.answerRestart p cleared
      ((s.applyReload p.reload).restartRecords cleared).evidence.sequence := rfl

/-- What the rest of a restart leaves: each outlet as it was but for its writer and its return, and the laws of the stores. -/
structure Resumed (s t : State) : Prop where
  outlet : ∀ o : OutletId, ∃ w : Writer, t.outlet o =
    { s.outlet o with intake := { (s.outlet o).intake with state := returnedState (t.outletSettings o) }, writer := w }
  images : ImagesValid s → ImagesValid t
  stores : StoresCanonical s → StoresCanonical t
  tables : TablesFit s → TablesFit t
  loading : t.loading = s.loading
  ready : t.restarting = none

theorem State.finishRestart_settings (s : State) (p : RestartProgress) (cleared : Bool) :
    (s.finishRestart p cleared).settings = (s.applyReload p.reload).settings := by
  rw [State.finishRestart_eq]
  exact (State.answerRestart_frame _ _ _ _).1.trans (State.restartRecords_frame _ cleared).1

theorem State.finishRestart_outlet (s : State) (p : RestartProgress) (cleared : Bool) (o : OutletId) :
    (s.finishRestart p cleared).outlet o =
      { s.outlet o with
        intake := { (s.outlet o).intake with state := returnedState ((s.finishRestart p cleared).outletSettings o) }
        writer := (((s.applyReload p.reload).restartRecords cleared).outlet o).writer } := by
  have written : State.outlet { s.restartWritten p cleared with restarting := none } o =
      ((s.applyReload p.reload).restartRecords cleared).outlet o := rfl
  have inForce : State.outletSettings { s.restartWritten p cleared with restarting := none } o =
      (s.finishRestart p cleared).outletSettings o := by
    unfold State.outletSettings
    rw [s.finishRestart_settings p cleared]
    exact congrArg (fun g : Image => g.outlets[o]) (State.restartRecords_frame _ cleared).1
  rw [← inForce, State.finishRestart_eq, State.answerRestart_outlet, State.returnOutlets_outlet, written,
    State.restartRecords_outlet, State.applyReload_outlet]

theorem State.finishRestart_resumed (s : State) (p : RestartProgress) (cleared : Bool) : Resumed s (s.finishRestart p cleared) := by
  obtain ⟨-, images, loading⟩ := (s.applyReload p.reload).restartRecords_frame cleared
  obtain ⟨stores, tables⟩ := (s.applyReload p.reload).restartRecords_stores cleared
  have answered : Keeps (fun _ _ => False) ({ s.restartWritten p cleared with restarting := none }).returnOutlets
      (s.finishRestart p cleared) := .answerRestart _ _ _ _
  have written : Keeps (fun _ _ => False) ((s.applyReload p.reload).restartRecords cleared) (s.restartWritten p cleared) :=
    .of_spreads (.create _ _)
  have before : StoresCanonical s → StoresCanonical (s.applyReload p.reload) := by
    unfold State.applyReload
    split <;> exact id
  have fitting : TablesFit s → TablesFit (s.applyReload p.reload) := by
    unfold State.applyReload
    split <;> exact fun f => ⟨f.1, f.2, f.3⟩
  refine ⟨fun o => ⟨_, s.finishRestart_outlet p cleared o⟩, fun v => answered.images ?_, fun c => answered.stores ?_,
    fun f => answered.tables ?_, ?_, ?_⟩
  · exact written.images (images (State.applyReload_images _ v))
  · exact written.stores (stores (before c))
  · obtain ⟨ports, fifo, holds⟩ := written.tables (tables (fitting f))
    exact ⟨ports, fifo, holds⟩
  · rw [answered.loading]
    show (s.restartWritten p cleared).loading = s.loading
    rw [written.loading, loading]
    exact (congrArg State.loading (s.applyReload_rest p.reload) :)
  · rw [State.finishRestart_eq]
    exact (State.answerRestart_frame _ _ _ _).2

/-! ### The port freed (R130, R134) -/

/-- The port is freed, and a restart that waited goes on. -/
theorem State.freePort_cases (s : State) :
    s.restarting = none ∧ s.freePort = { s with port := none } ∨
      ∃ p : RestartProgress, s.restarting = some p ∧ s.freePort = ({ s with port := none }).finishRestart p true := by
  unfold State.freePort State.resumeRestart
  cases waiting : s.restarting with
  | none => exact .inl ⟨rfl, by simp⟩
  | some p => exact .inr ⟨p, rfl, by simp⟩

/-! ### A restart taken (R180) -/

theorem Keeps.abortAll {R : OutletId → Part → Prop} (s : State) : Keeps R s s.abortAll :=
  (Keeps.abortDeferred s _).trans (.abortDeferred _ _)

theorem Keeps.closing (s : State) : Keeps (fun _ x => x ≠ .writer) s s.abortAll.closeAll :=
  (Keeps.abortAll s).trans (.of_spreads (.closeAll _))

/-- An outlet after the first two steps of a restart has its restart values (R54). -/
theorem State.closing_outlet (s : State) (o : OutletId) : s.abortAll.closeAll.outlet o =
    { intake := (s.outlet o).intake.restarted, sched := restSched, loud := restLoud, subs := restSubs, verdict := restVerdict,
      writer := (s.outlet o).writer } := by
  have same : s.abortAll.outlet o = s.outlet o := Outlet.eq_of_same fun x => (Keeps.abortAll (R := fun _ _ => False) s).outlets o x id
  rw [State.closeAll_outlet, same]

/-- A restart taken closes everything, and then waits for a burst, or goes on at once (R134, R180). -/
theorem State.runRestart_cases (s : State) (reload : Bool) (tag : Tag) :
    ∃ (u : State) (p : RestartProgress), Keeps (fun _ x => x ≠ .writer) s u ∧
      (∀ o : OutletId, u.outlet o =
        { intake := (s.outlet o).intake.restarted, sched := restSched, loud := restLoud, subs := restSubs, verdict := restVerdict,
          writer := (s.outlet o).writer }) ∧
      (s.runRestart reload tag = u.awaitBurst p ∨ ∃ cleared : Bool, s.runRestart reload tag = u.finishRestart p cleared ∧
        cleared = u.clearing p.reload ∧ (cleared = true → u.port = none)) := by
  refine ⟨s.abortAll.closeAll, { reload := reload, tag := some tag, notes := s.restartNotes, aborted := s.deferredCount },
    .closing s, s.closing_outlet, ?_⟩
  unfold State.runRestart
  dsimp only
  split
  · exact .inl rfl
  · rename_i free
    refine .inr ⟨_, rfl, rfl, fun clears => ?_⟩
    rw [clears] at free
    simpa using free

/-- A restart that waits holds the compliance link. -/
theorem State.awaitBurst_frame (s : State) (p : RestartProgress) :
    (∀ o : OutletId, (s.awaitBurst p).outlet o = s.outlet o) ∧ (s.awaitBurst p).loading = s.loading ∧
      (ImagesValid s → ImagesValid (s.awaitBurst p)) ∧ (StoresCanonical s → StoresCanonical (s.awaitBurst p)) ∧
      (TablesFit s → TablesFit (s.awaitBurst p)) := by
  refine ⟨fun _ => rfl, rfl, id, id, fun f => ?_⟩
  have held : Keeps (fun _ _ => False) { s with restarting := some p } (s.awaitBurst p) := .modLink _ _ fun f => ⟨f.1, f.2, f.3⟩
  exact held.tables ⟨f.1, f.2, f.3⟩

/-! ### Loading and power (R177) -/

theorem State.load_outlet (s : State) (g : Image) (o : OutletId) :
    (s.load g).outlet o =
      { s.outlet o with intake := { (s.outlet o).intake with state := returnedState (g.outlets[o]) } } := by
  refine (State.returnOutlets_outlet _ o).trans ?_
  rfl

/-- Loading completes on a state that differs at most by the SETTINGS flag (R177). -/
theorem State.completeLoad_cases (s : State) :
    ∃ u : State, Keeps (fun _ _ => False) s u ∧ s.completeLoad = u.load s.flash.image := by
  unfold State.completeLoad
  split
  · exact ⟨_, .raiseSettings s _, rfl⟩
  · exact ⟨s, .refl s, rfl⟩

theorem State.load_tables {s : State} (h : TablesFit s) (g : Image) : TablesFit (s.load g) := by
  refine ⟨fun l => ?_, Evidence.create_bound h.fifo _, h.holds⟩
  have fits := h.ports l
  cases l <;> exact ⟨fits.1, fits.2, fits.3⟩

theorem State.completeLoad_outlet (s : State) (o : OutletId) :
    s.completeLoad.outlet o =
      { s.outlet o with intake := { (s.outlet o).intake with state := returnedState (s.completeLoad.outletSettings o) } } := by
  unfold State.completeLoad
  refine (State.load_outlet _ _ o).trans ?_
  split <;> rfl

theorem judgeImage_eq_ok {bytes : Bytes} {g : Image} (h : judgeImage bytes = .ok g) : g.refusal = none := judgeImage_valid h

/-- The image that loading puts in force is valid (R176, R177). -/
theorem Flash.image_valid (f : Flash) : f.image.refusal = none := by
  unfold Flash.image
  split
  · rename_i g judged
    unfold Flash.judge at judged
    split at judged
    · cases judged
    · split at judged
      · exact judgeImage_valid judged
      · cases judged
  · decide

theorem State.powerOnAt_outlet (s : State) (t : Instant) (o : OutletId) : (s.powerOnAt t).outlet o = powerOnOutlet := by
  simp [State.powerOnAt, State.reset, State.outlet]

end Sys2Proof.Machine
end

section
/-! The stores stay canonical, and the tables and queues within their sizes (R112, R114, R135, R150, R162, R166, R173). -/

namespace Sys2Proof.Machine

theorem StoresCanonical.freePort {s : State} (h : StoresCanonical s) : StoresCanonical s.freePort := by
  obtain ⟨-, same⟩ | ⟨p, -, same⟩ := s.freePort_cases
  · rw [same]
    exact h
  · rw [same]
    exact (State.finishRestart_resumed _ p true).stores h

theorem StoresCanonical.runRestart {s : State} (h : StoresCanonical s) (reload : Bool) (tag : Tag) :
    StoresCanonical (s.runRestart reload tag) := by
  obtain ⟨u, p, closed, -, waits | ⟨cleared, goes, -⟩⟩ := s.runRestart_cases reload tag
  · rw [waits]
    exact closed.stores h
  · rw [goes]
    exact (State.finishRestart_resumed u p cleared).stores (closed.stores h)

theorem StoresCanonical.completeLoad {s : State} (h : StoresCanonical s) : StoresCanonical s.completeLoad := by
  obtain ⟨u, kept, same⟩ := s.completeLoad_cases
  rw [same]
  exact kept.stores h

/-- Every command keeps the stores canonical. -/
theorem Effect.stores {c : Instr} {s t : State} (e : Effect c s t) (h : StoresCanonical s) : StoresCanonical t := by
  cases e with
  | kept k => exact k.stores h
  | burst _ k _ => exact (k.stores h).freePort
  | evidence _ _ => exact StoresCanonical.freePort ⟨memoryWf_writeBytes h.1 _ _, h.2⟩
  | writer _ _ => exact h
  | region _ _ => exact h
  | power => exact ⟨rfl, rfl⟩
  | load _ _ => exact h.completeLoad
  | restart k _ _ reload tag => exact (k.stores h).runRestart reload tag

/-- Settles O4: every command's effect keeps the stores canonical. -/
theorem storesKept : Obligations.StoresKept := by
  intro s t h taken
  obtain idles | ⟨c, rest, -, same⟩ := step_cases s
  · cases idles.symm.trans taken
    exact h
  · exact (exec_effect (same.symm.trans taken)).stores h

/-! ### Tables and queues -/

theorem TablesFit.freePort {s : State} (h : TablesFit s) : TablesFit s.freePort := by
  have fits : TablesFit { s with port := none } := ⟨h.1, h.2, h.3⟩
  obtain ⟨-, same⟩ | ⟨p, -, same⟩ := s.freePort_cases
  · rw [same]
    exact fits
  · rw [same]
    exact (State.finishRestart_resumed _ p true).tables fits

theorem TablesFit.runRestart {s : State} (h : TablesFit s) (reload : Bool) (tag : Tag) : TablesFit (s.runRestart reload tag) := by
  obtain ⟨u, p, closed, -, waits | ⟨cleared, goes, -⟩⟩ := s.runRestart_cases reload tag
  · rw [waits]
    exact (u.awaitBurst_frame p).2.2.2.2 (closed.tables h)
  · rw [goes]
    exact (State.finishRestart_resumed u p cleared).tables (closed.tables h)

theorem TablesFit.completeLoad {s : State} (h : TablesFit s) : TablesFit s.completeLoad := by
  obtain ⟨u, kept, same⟩ := s.completeLoad_cases
  rw [same]
  exact State.load_tables (kept.tables h) _

/-- A burst formed leaves the FIFO as long as it was (R152). -/
theorem Evidence.settleBurst_length (capacity : Nat) (e : Evidence) (p : BitVec 32) (rs : List EvidenceRecord) :
    (Evidence.settleBurst capacity e p rs).2.length = rs.length := by
  induction rs generalizing e p with
  | nil => rfl
  | cons r rs ih =>
    unfold Evidence.settleBurst
    split
    · exact congrArg (· + 1) (ih _ _)
    · exact congrArg (· + 1) (ih _ _)

theorem TablesFit.grantEvidence {s : State} (h : TablesFit s) : TablesFit s.grantEvidence := by
  refine ⟨h.1, ?_, h.3⟩
  have fifo := h.fifo
  simp only [State.grantEvidence, List.length_append, Evidence.settleBurst_length, List.length_take, List.length_drop]
  omega

theorem TablesFit.writeEvidence {s : State} (h : TablesFit s) (n : Nat) : TablesFit (s.writeEvidence n) := by
  refine ⟨h.1, ?_, h.3⟩
  have fifo := h.fifo
  simp only [State.writeEvidence, List.length_drop]
  omega

theorem TablesFit.refresh {s : State} (h : TablesFit s) : TablesFit s.refresh := (Keeps.refresh (R := fun _ _ => False) s).tables h

/-- Every command keeps the tables within their sizes. -/
theorem Effect.tables {c : Instr} {s t : State} (e : Effect c s t) (h : TablesFit s) : TablesFit t := by
  cases e with
  | kept k => exact k.tables h
  | burst _ k _ => exact (k.tables h).freePort.refresh
  | evidence _ _ => exact (h.writeEvidence _).freePort.refresh
  | writer _ _ => exact TablesFit.refresh ⟨h.1, h.2, h.3⟩
  | @region high low _ _ =>
    have moved : TablesFit { s with highPos := high, lowPos := low } := ⟨h.1, h.2, h.3⟩
    exact moved.grantEvidence.refresh
  | power i powered loading =>
    refine TablesFit.refresh ⟨fun l => ?_, Nat.zero_le _, Nat.zero_le _⟩
    cases l <;> exact ⟨Nat.zero_le _, Nat.zero_le _, Nat.le_refl _⟩
  | load _ _ => exact h.completeLoad.refresh
  | restart k _ _ reload tag => exact ((k.tables h).runRestart reload tag).refresh

end Sys2Proof.Machine
end

section
/-! What befalls an outlet between two of its frames: its segments only leave the schedule, its current segment keeps its frames, and
ticks may lose its return and lengthen its gap (R12, R13, R32, R39, R84 to R86). -/

namespace Sys2Proof.Machine

/-! ### The Scheduler -/

/-- The part of a current segment that the laws speak of. -/
abbrev Current.core (c : Current) : Declaration × Nat := (c.decl, c.frameCount)

/-- A schedule whose queue has not grown, and that holds no segment id more often than before but the id 0 (R32). -/
structure Sched.Shrinks (q r : Sched) : Prop where
  queue : r.queue.length ≤ q.queue.length
  ids : ∀ i : BitVec 32, i ≠ 0 → r.ids.count i ≤ q.ids.count i

theorem Sched.Shrinks.refl (q : Sched) : q.Shrinks q := ⟨Nat.le_refl _, fun _ _ => Nat.le_refl _⟩

theorem Sched.Shrinks.trans {q r t : Sched} (h : q.Shrinks r) (k : r.Shrinks t) : q.Shrinks t :=
  ⟨k.queue.trans h.queue, fun i hi => (k.ids i hi).trans (h.ids i hi)⟩

/-- Ids that occur no more often, in a queue that has not grown. -/
theorem Sched.Shrinks.of_sublist {q r : Sched} (queue : r.queue.length ≤ q.queue.length) (ids : r.ids.Sublist q.ids) : q.Shrinks r :=
  ⟨queue, fun i _ => ids.count_le i⟩

/-- A head armed passes from the queue to the slot (R39). -/
theorem Sched.Shrinks.arm {q : Sched} {d : Declaration} (head : q.queue.head? = some d) (empty : q.armed = none)
    (b : BoundaryStamp) (c : ArmCause) (air : AirTime) (late : Bool) : q.Shrinks (q.arm d b c air late) := by
  obtain ⟨rest, queue⟩ := List.head?_eq_some_iff.mp head
  constructor
  · simp [Sched.arm, queue]
  · intro i _
    simp only [Sched.arm, Sched.ids, queue, empty, List.tail_cons, List.map_cons, List.count_append, List.count_cons,
      Option.map_some, Option.map_none, Option.toList_some, Option.toList_none, List.count_nil]
    omega

/-- The armed slot filled with the UNDECLARED segment, whose id is 0 (R37). -/
theorem Sched.Shrinks.ending {q : Sched} (empty : q.armed = none) (a : Armed) (zero : a.decl.id = 0) :
    q.Shrinks { q with armed := some a } := by
  refine ⟨Nat.le_refl _, fun i hi => ?_⟩
  have other : 0#32 ≠ i := hi.symm
  simp [Sched.ids, empty, zero, List.count_append, List.count_cons_of_ne other]

/-- A pending segment withdrawn (R35). -/
theorem Sched.Shrinks.erase (q : Sched) (i : Nat) (w : Option Waiting) :
    q.Shrinks { q with queue := q.queue.eraseIdx i, waiting := w } := by
  have fewer : (q.queue.eraseIdx i).Sublist q.queue := List.eraseIdx_sublist _ _
  exact .of_sublist fewer.length_le (((fewer.map _).append (.refl _)).append (.refl _))

/-- The current segment changed but for its declaration. -/
theorem Sched.Shrinks.modCurrent (q : Sched) (f : Current → Current) (h : ∀ c : Current, (f c).decl = c.decl) :
    q.Shrinks { q with current := q.current.map f } := by
  refine .of_sublist (Nat.le_refl _) ?_
  cases current : q.current <;> simp [Sched.ids, current, h]

/-! ### The Subtitle Checker -/

/-- The gap of a Subtitle Checker may open or lengthen; what has been seen is as it was (R84 to R86). -/
structure Subs.Passes (b d : Subs) : Prop where
  seen : d.record.map (fun r => (r.framesSeen, r.covered)) = b.record.map fun r => (r.framesSeen, r.covered)
  gap : (b.gap.isSome = true → b.timer = .expired) → d.gap.isSome = true → d.timer = .expired
  rest : b.timer = .stopped → b.gap = none → d.timer = .stopped ∧ d.gap = none

theorem Subs.Passes.refl (b : Subs) : b.Passes b := ⟨rfl, id, fun h k => ⟨h, k⟩⟩

theorem Subs.Passes.trans {b d e : Subs} (h : b.Passes d) (k : d.Passes e) : b.Passes e :=
  ⟨k.seen.trans h.seen, fun law => k.gap (h.gap law), fun stopped none => k.rest (h.rest stopped none).1 (h.rest stopped none).2⟩

/-! ### The outlet -/

/-- What may befall an outlet between two of its frames, its queue set aside. -/
structure Outlet.Proceeds (t u : Outlet) : Prop where
  state : u.intake.state = t.intake.state ∨ t.intake.state = .active ∧ u.intake.state = .lost
  current : u.sched.current.map Current.core = t.sched.current.map Current.core
  brk : u.sched.brk = t.sched.brk
  loud : u.loud = t.loud
  subs : t.subs.Passes u.subs

theorem Outlet.Proceeds.refl (t : Outlet) : t.Proceeds t := ⟨.inl rfl, rfl, rfl, rfl, .refl _⟩

theorem Outlet.Proceeds.trans {t u v : Outlet} (h : t.Proceeds u) (k : u.Proceeds v) : t.Proceeds v := by
  refine ⟨?_, k.current.trans h.current, k.brk.trans h.brk, k.loud.trans h.loud, h.subs.trans k.subs⟩
  obtain same | ⟨active, lost⟩ := k.state
  · rw [same]
    exact h.state
  · obtain before | ⟨-, gone⟩ := h.state
    · exact .inr ⟨before ▸ active, lost⟩
    · rw [gone] at active
      cases active

/-- Every outlet proceeds, and, unless the schedules may grow (`G`), every schedule shrinks. -/
def Rests (G : Prop) (s t : State) : Prop :=
  ∀ o : OutletId, (s.outlet o).Proceeds (t.outlet o) ∧ (G ∨ (s.outlet o).sched.Shrinks (t.outlet o).sched)

section
variable {G : Prop}

theorem Rests.refl (s : State) : Rests G s s := fun _ => ⟨.refl _, .inr (.refl _)⟩

theorem Rests.trans {s t u : State} (h : Rests G s t) (k : Rests G t u) : Rests G s u := fun o =>
  ⟨(h o).1.trans (k o).1, (h o).2.elim .inl fun a => (k o).2.elim .inl fun b => .inr (a.trans b)⟩

theorem Rests.ite {s t u : State} {c : Prop} [Decidable c] (h : Rests G s t) (k : Rests G s u) : Rests G s (if c then t else u) := by
  split
  · exact h
  · exact k

/-- Where only the other parts of the outlets may change, every outlet proceeds. -/
theorem Rests.of_keeps {R : OutletId → Part → Prop} {s t : State} (h : Keeps R s t)
    (free : ∀ (o : OutletId) (x : Part), R o x → x = .verdict ∨ x = .writer) : Rests G s t := by
  intro o
  have same : ∀ x : Part, x ≠ .verdict → x ≠ .writer → x.same (s.outlet o) (t.outlet o) := fun x verdict writer =>
    h.outlets o x fun r => (free o x r).elim verdict writer
  have intake : (t.outlet o).intake = (s.outlet o).intake := same .intake nofun nofun
  have sched : (t.outlet o).sched = (s.outlet o).sched := same .sched nofun nofun
  have subs : (t.outlet o).subs = (s.outlet o).subs := same .subs nofun nofun
  refine ⟨⟨.inl (by rw [intake]), by rw [sched], by rw [sched], same .loud nofun nofun, ?_⟩, .inr ?_⟩
  · rw [subs]
    exact .refl _
  · rw [sched]
    exact .refl _

theorem Rests.same {s t : State} (h : Keeps (fun _ _ => False) s t) : Rests G s t := .of_keeps h nofun

theorem Rests.modOutlet (s : State) (o : OutletId) {f : Outlet → Outlet} (proceeds : (s.outlet o).Proceeds (f (s.outlet o)))
    (shrinks : G ∨ (s.outlet o).sched.Shrinks (f (s.outlet o)).sched) : Rests G s (s.modOutlet o f) := by
  intro p
  by_cases here : p = o
  · subst here
    rw [State.outlet_modOutlet_same]
    exact ⟨proceeds, shrinks⟩
  · rw [State.outlet_modOutlet_of_ne s here]
    exact ⟨.refl _, .inr (.refl _)⟩

theorem Rests.modSched (s : State) (o : OutletId) {f : Sched → Sched}
    (current : (f (s.outlet o).sched).current.map Current.core = (s.outlet o).sched.current.map Current.core)
    (brk : (f (s.outlet o).sched).brk = (s.outlet o).sched.brk) (shrinks : G ∨ (s.outlet o).sched.Shrinks (f (s.outlet o).sched)) :
    Rests G s (s.modSched o f) :=
  .modOutlet s o ⟨.inl rfl, current, brk, rfl, .refl _⟩ shrinks

theorem Rests.modIntake (s : State) (o : OutletId) {f : Intake → Intake}
    (state : (f (s.outlet o).intake).state = (s.outlet o).intake.state ∨
      (s.outlet o).intake.state = .active ∧ (f (s.outlet o).intake).state = .lost) : Rests G s (s.modIntake o f) :=
  .modOutlet s o ⟨state, rfl, rfl, rfl, .refl _⟩ (.inr (.refl _))

theorem Rests.modSubs (s : State) (o : OutletId) {f : Subs → Subs} (h : (s.outlet o).subs.Passes (f (s.outlet o).subs)) :
    Rests G s (s.modSubs o f) :=
  .modOutlet s o ⟨.inl rfl, rfl, rfl, rfl, h⟩ (.inr (.refl _))

theorem Rests.foldl {α : Type} {f : State → α → State} (h : ∀ (u : State) (a : α), Rests G u (f u a)) (xs : List α) (s : State) :
    Rests G s (xs.foldl f s) := by
  induction xs generalizing s with
  | nil => exact .refl s
  | cons x xs ih => exact (h s x).trans (ih _)

/-! ### Triggers (R39 to R42) -/

theorem Rests.setWaiting (s : State) (o : OutletId) (w : Waiting) : Rests G s (s.setWaiting o w) :=
  .modSched s o rfl rfl (.inr ⟨Nat.le_refl _, fun _ _ => Nat.le_refl _⟩)

theorem Rests.armHead (s : State) {o : OutletId} {d : Declaration} (head : s.head o = some d) (empty : (s.outlet o).sched.armed = none)
    (b : BoundaryStamp) (c : ArmCause) (late : Bool) : Rests G s (s.armHead o d b c late) :=
  .modSched s o rfl rfl (.inr (.arm head empty b c s.time.air late))

theorem Rests.testTimed (s : State) (o : OutletId) (c : LateCause) : Rests G s (s.testTimed o c).1 := by
  unfold State.testTimed
  split
  · exact .refl s
  · rename_i d head
    split
    · split
      · exact .refl s
      · split
        · exact .setWaiting s o _
        · rename_i empty
          exact .armHead s head (by simpa using empty) _ _ _
    · exact .refl s

theorem Rests.evaluate (s : State) (o : OutletId) (c : LateCause) : Rests G s (s.evaluate o c) := by
  unfold State.evaluate
  split
  · exact .refl s
  · rename_i d head
    split
    · exact .refl s
    · rename_i empty
      have armed := fun b c late => Rests.armHead (G := G) s head (by simpa using empty) b c late
      split
      · split
        · exact (armed _ _ _).trans (.same (.of_spreads (.createAll _ _)))
        · exact .refl s
      · split
        · exact armed _ _ _
        · exact .refl s
      · exact .refl s

theorem Rests.cueTrigger (s : State) (o : OutletId) (k : CueLine) (stamp : AirTime) : Rests G s (s.cueTrigger o k stamp) := by
  unfold State.cueTrigger
  split
  · exact .refl s
  · rename_i d head
    split
    · rename_i due
      exact .armHead s head (by simpa using due.2) _ _ _
    · exact .refl s

/-! ### Ticks and steps of air time (R12, R13, R50, R85) -/

theorem Rests.setBreach (s : State) (o : OutletId) (f : VerdictUnit → VerdictUnit) : Rests G s (s.setBreach o f) :=
  .of_keeps (R := fun p x => p = o ∧ x = .verdict) (.of_spreads (.setBreach s ⟨rfl, rfl⟩ f)) fun _ _ h => .inl h.2

/-- A gap that opens stops its timer at 0, which was running (R85). -/
theorem Rests.openGap (s : State) {o : OutletId} {n : Nat} (running : (s.outlet o).subs.timer = .running n) (start : AirTime)
    (rfn : Option Rfn) : Rests G s (s.openGap o start rfn) := by
  unfold State.openGap State.reportGap
  refine (Rests.modSubs s o ⟨?_, fun _ _ => rfl, fun stopped => ?_⟩).trans (.setBreach _ _ _)
  · simp [Subs.modRecord, Option.map_map, Function.comp_def]
  · rw [running] at stopped
    cases stopped

theorem Rests.passGap (s : State) (o : OutletId) (start : AirTime) (rfn : Option Rfn) : Rests G s (s.passGap o start rfn) := by
  unfold State.passGap
  split
  · rename_i g opened
    refine .modSubs s o ⟨rfl, fun law _ => law (by simp [opened]), fun _ none => ?_⟩
    rw [opened] at none
    cases none
  · rename_i closed
    unfold State.runTimer
    split
    · rename_i n running
      split
      · exact .openGap s running start rfn
      · refine .modSubs s o ⟨rfl, fun _ opened => ?_, fun stopped => ?_⟩
        · simp [closed] at opened
        · rw [running] at stopped
          cases stopped
    · exact .refl s
    · exact .refl s

theorem Rests.enterLost (s : State) {o : OutletId} (active : (s.outlet o).intake.state = .active) : Rests G s (s.enterLost o) :=
  .modIntake s o (.inr ⟨active, rfl⟩)

theorem Rests.lostTick (s : State) (o : OutletId) : Rests G s (s.lostTick o) := by
  unfold State.lostTick
  dsimp only
  refine ((Rests.modIntake s o (.inl rfl)).trans (.modSched _ o ?_ rfl (.inr (.modCurrent _
    (fun c => { c with lostTicks := satAdd max32 c.lostTicks 1 }) fun _ => rfl)))).trans (.passGap _ o _ _)
  simp [Option.map_map, Function.comp_def]

theorem Rests.tickIntake (s : State) (o : OutletId) : Rests G s (s.tickIntake o).1 := by
  unfold State.tickIntake
  split
  · exact .refl s
  · exact .refl s
  · exact .lostTick s o
  · rename_i active
    dsimp only
    have timed : Rests G s (s.modIntake o fun i => { i with lossTimer := i.lossTimer + 1 }) := .modIntake s o (.inl rfl)
    split
    · refine timed.trans (.enterLost _ ?_)
      rw [State.modIntake, State.outlet_modOutlet_same]
      exact active
    · exact timed

theorem Rests.stepOutlet (s : State) (o : OutletId) : Rests G s (s.stepOutlet o).1 := by
  unfold State.stepOutlet
  refine (Rests.modSched s o ?_ rfl (.inr (.modCurrent _ (fun c => { c with timeStepSeen := true }) fun _ => rfl))).trans
    (.testTimed _ o _)
  simp [Option.map_map, Function.comp_def]

theorem Rests.tickClosed : TickClosed (Rests G) :=
  ⟨.refl, .trans, .same, .tickIntake, .testTimed, .stepOutlet⟩

/-! ### Requests (R34 to R37) -/

theorem Rests.withArgs {α : Type} {l : Link} {r : Request} {args : Option α} {s : State} {f : α → State}
    (h : ∀ a : α, args = some a → Rests G s (f a)) : Rests G s (withArgs l r args s f) := by
  cases args with
  | none => exact .same (.answer s l r _ _)
  | some a => exact h a rfl

theorem Rests.answer (s : State) (l : Link) (r : Request) (status : Status) (body : Body) : Rests G s (s.answer l r status body) :=
  .same (.answer s l r status body)

theorem Rests.withdraw (s : State) (o : OutletId) (i : Nat) : Rests G s (s.withdraw o i) := by
  unfold State.withdraw
  dsimp only
  have removed : Rests G s (s.modSched o fun q =>
      { q with queue := q.queue.eraseIdx i, waiting := if i = 0 then none else q.waiting }) :=
    .modSched s o rfl rfl (.inr (.erase _ _ _))
  exact .ite (removed.trans (.evaluate _ _ _)) removed

theorem Rests.withdrawSegment (s : State) (l : Link) (r : Request) : Rests G s (withdrawSegment l r s) := by
  refine .withArgs fun a _ => ?_
  dsimp only
  split
  · refine Rests.trans ?_ (.answer _ l r _ _)
    exact .withdraw s a.1 _
  · split
    · exact .answer s l r _ _
    · exact .answer s l r _ _

theorem Rests.takeSegment (s : State) (l : Link) (r : Request) : Rests G s (takeSegment l r s) := by
  refine .withArgs fun o _ => ?_
  dsimp only
  split
  · exact .answer s l r _ _
  · rename_i empty
    split
    · exact .answer s l r _ _
    · rename_i d head
      exact (Rests.armHead s head (by simpa using empty) _ _ _).trans (.answer _ l r _ _)

theorem Rests.endSegment (s : State) (l : Link) (r : Request) : Rests G s (endSegment l r s) := by
  refine .withArgs fun o _ => ?_
  dsimp only
  split
  · exact .answer s l r _ _
  · rename_i empty
    exact (Rests.modSched s o rfl rfl (.inr (.ending (by simpa using empty) _ rfl))).trans (.answer _ l r _ _)

/-- A declaration may only lengthen its own queue, by an id that is new and where there is room (R34). -/
theorem Rests.declareSegment (s : State) (l : Link) (r : Request) :
    Rests G s (declareSegment l r s) ∨
      ∃ (o : OutletId) (d : Declaration), d.id ∉ (s.outlet o).sched.ids ∧ (s.outlet o).sched.queue.length < 16 ∧
        Rests G (s.modSched o fun q => { q with queue := q.queue ++ [d] }) (declareSegment l r s) := by
  unfold Machine.declareSegment
  cases args : readSegDeclare r.body with
  | none => exact .inl (.answer s l r _ _)
  | some a =>
    dsimp only [Machine.withArgs]
    split
    · exact .inl (.answer s l r _ _)
    · rename_i fresh
      split
      · exact .inl (.answer s l r _ _)
      · rename_i room
        refine .inr ⟨a.1, a.2, fresh, Nat.lt_of_not_le room, ?_⟩
        split
        · exact (Rests.evaluate _ a.1 .lateDeclare).trans (.answer _ l r _ _)
        · exact .answer _ l r _ _

end

end Sys2Proof.Machine
end

section
/-! The laws of the outlets that every command but an arrival keeps, and what a declaration adds to them. -/

namespace Sys2Proof.Machine

variable {G : Prop}

theorem Rests.when {c : Bool} {u s t : State} (h : when c u s = .next t) (rests : c = true → Rests G s u) : Rests G s t := by
  rw [when_next] at h
  cases h
  split
  · rename_i hc
    exact (rests hc).trans (.same (.refresh u))
  · exact .refl s

theorem Rests.idle {s t : State} (h : idle s = .next t) : Rests G s t := .same (.idle h)

/-- A request taken at the head of its queue, where its owner lets the outlets proceed. -/
theorem Rests.serve {l : Link} {code : Byte} {allowed : Bool} {owner : Request → State → State} {s t : State}
    (h : serve l code allowed owner s = .next t) (rests : ∀ (r : Request) (u : State), Rests G u (owner r u)) : Rests G s t := by
  unfold Machine.serve at h
  have taken : ∀ (r : Request) (status : Status), Rests G s ((s.takeRequest l).answer l r status .none).refresh := fun r status =>
    .same (((Keeps.takeRequest s l).trans (.answer _ _ _ _ _)).trans (.refresh _))
  split at h
  · exact .idle h
  · split at h
    · exact .idle h
    · split at h
      · cases h
        exact taken _ _
      · split at h
        · cases h
          exact taken _ _
        · cases h
          exact ((Rests.same (.takeRequest s l)).trans (rests _ _)).trans (.same (.refresh _))

/-- A gap that opens on a timer at 0 (R85). -/
theorem Rests.gapOpen {o : OutletId} {s t : State} (h : exec (.gapOpen o) s = .next t) : Rests G s t := by
  replace h : execGapOpen o s = .next t := h
  unfold execGapOpen at h
  refine .when h fun due => ?_
  have running : (s.outlet o).subs.timer = .running 0 := by simpa using (Bool.and_eq_true_iff.mp due).2
  split <;> exact .openGap s running _ _

theorem Rests.acceptEdge (s : State) (k : CueLine) (i : Instant) : Rests G s (s.acceptEdge k i) := by
  unfold State.acceptEdge
  dsimp only
  have captured : Rests G s ((s.setCue k ((s.cue k).capture s.time.air i)).raiseBoth .cue) :=
    .same ((Keeps.setCue s _ _).trans (.of_spreads (.raiseBoth _ _)))
  split
  · exact captured.trans (.same (.of_spreads (.create _ _)))
  · exact captured.trans (.foldl (fun u o => .cueTrigger u o _ _) _ _)

/-- Every command that only keeps the rest, but an arrival and a declaration, lets the outlets proceed. -/
theorem exec_rests {c : Instr} {s t : State} (h : exec c s = .next t) (k : Keeps (Instr.reach c) s t)
    (arrives : ∀ (o : OutletId) (bytes : Bytes), c ≠ .airFrameArrival o bytes) (declares : ∀ l : Link, c ≠ .segDeclare l) :
    Rests G s t := by
  cases c with
  | airFrameArrival o bytes => exact absurd rfl (arrives o bytes)
  | segDeclare l => exact absurd rfl (declares l)
  | gapOpen o => exact .gapOpen h
  | framePulse i =>
    exact .when h fun _ => (Rests.tickClosed.settleWatchdog s i).trans (Rests.tickClosed.framePulse _ i)
  | secondPulse i => exact .when h fun _ => Rests.tickClosed.secondPulse s i
  | missingPulse =>
    replace h : execMissingPulse s = .next t := h
    unfold execMissingPulse at h
    split at h
    · exact .when h fun _ => Rests.tickClosed.missPulse s _
    · exact .idle h
  | localOscillatorExpiry =>
    replace h : execLocalOscillatorExpiry s = .next t := h
    unfold execLocalOscillatorExpiry at h
    split at h
    · exact .when h fun _ => Rests.tickClosed.expire s _
    · exact .idle h
  | returnLost o =>
    refine .when h fun lost => (Rests.enterLost s ?_).trans (.same (.of_spreads (.create _ _)))
    simp only [Bool.and_eq_true, beq_iff_eq] at lost
    exact lost.1.2
  | cueEdge l i => exact .when h fun _ => .acceptEdge s l i
  | segWithdraw l => exact .serve h fun r u => .withdrawSegment u l r
  | segTake l => exact .serve h fun r u => .takeSegment u l r
  | segEnd l => exact .serve h fun r u => .endSegment u l r
  | excursion o l stamp => exact .of_keeps k fun _ _ r => .inl r.2
  | recordTake o => exact .of_keeps k fun _ _ r => .inr r.2
  | airBytesUndelimited | messageReceived | linkBytesUndelimited | responseSent | segList | timeSet | cueRead | profileStage
  | profileRead | pageList | pageRead | pageRelease | holdPlace | holdRelease | holdList | evidRead | evidAck | settingsSave
  | restart | status | meterRead | flagsRead | flagsClear | maskSet | linkReset | linkResetLineRise | linkResetLineFall
  | arbiterGrant | deferredReadTimeout | evidenceBurstComplete | pageReadFetchComplete | evidReadFetchComplete | powerOn
  | settingsLoadComplete | settingsSaveComplete | powerLoss | unknownRequestCode | recordWriteComplete | recordBurstComplete =>
    exact .of_keeps k nofun

/-- A declaration lets the outlets proceed, but that one queue may grow by a new id, where there is room (R34). -/
theorem declare_rests {l : Link} {s t : State} (h : exec (.segDeclare l) s = .next t) :
    Rests False s t ∨
      ∃ (u : State) (o : OutletId) (d : Declaration), u.outlets = s.outlets ∧ d.id ∉ (u.outlet o).sched.ids ∧
        (u.outlet o).sched.queue.length < 16 ∧ Rests False (u.modSched o fun q => { q with queue := q.queue ++ [d] }) t := by
  replace h : serve l 1 (l = .automation) (declareSegment l) s = .next t := h
  unfold serve at h
  have taken : ∀ (r : Request) (status : Status), Rests False s ((s.takeRequest l).answer l r status .none).refresh :=
    fun r status => .same (((Keeps.takeRequest s l).trans (.answer _ _ _ _ _)).trans (.refresh _))
  split at h
  · exact .inl (.idle h)
  · rename_i r _
    split at h
    · exact .inl (.idle h)
    · split at h
      · cases h
        exact .inl (taken _ _)
      · split at h
        · cases h
          exact .inl (taken _ _)
        · cases h
          have begun : Rests False s (s.takeRequest l) := .same (.takeRequest s l)
          have ended : ∀ v : State, Rests False v v.refresh := fun v => .same (.refresh v)
          obtain same | ⟨o, d, fresh, room, grown⟩ := Rests.declareSegment (G := False) (s.takeRequest l) l r
          · exact .inl ((begun.trans same).trans (ended _))
          · exact .inr ⟨_, o, d, rfl, fresh, room, grown.trans (ended _)⟩

/-- A declaration lets every outlet proceed, its queue set aside. -/
theorem declare_proceeds {l : Link} {s t : State} (h : exec (.segDeclare l) s = .next t) : Rests True s t := by
  have forget : ∀ {u v : State}, Rests False u v → Rests True u v := fun r o => ⟨(r o).1, .inl trivial⟩
  obtain same | ⟨u, o, d, begun, -, -, ended⟩ := declare_rests h
  · exact forget same
  · have before : Rests True s u := fun p => by
      rw [State.outlet, State.outlet, begun]
      exact ⟨.refl _, .inl trivial⟩
    exact (before.trans (.modSched u o rfl rfl (.inl trivial))).trans (forget ended)

/-- An arrival leaves the other outlets to rest. -/
theorem arrival_rests {p : OutletId} {bytes : Bytes} {s t : State} (k : Keeps (Instr.reach (.airFrameArrival p bytes)) s t)
    {o : OutletId} (other : o ≠ p) : t.outlet o = s.outlet o :=
  Outlet.eq_of_same fun x => k.outlets o x other

end Sys2Proof.Machine
end

section
/-! What a frame makes of its outlet's schedule: the closes, the announcement, breaks, the count and the triggers (R33, R42 to R53). -/

namespace Sys2Proof.Machine

/-! ### Triggers at one outlet (R39, R40, R42) -/

/-- A schedule in which at most the head has passed to an empty slot, or the waiting trigger has changed. -/
inductive Sched.Arms (q : Sched) : Sched → Prop where
  | same : q.Arms q
  | waiting (w : Option Waiting) : q.Arms { q with waiting := w }
  | head {d : Declaration} (first : q.queue.head? = some d) (empty : q.armed = none) (b : BoundaryStamp) (c : ArmCause) (air : AirTime)
    (late : Bool) : q.Arms (q.arm d b c air late)

theorem Sched.Arms.frame {q r : Sched} (h : q.Arms r) : r.current = q.current ∧ r.brk = q.brk := by
  cases h <;> exact ⟨rfl, rfl⟩

theorem Sched.Arms.shrinks {q r : Sched} (h : q.Arms r) : q.Shrinks r := by
  cases h with
  | same => exact .refl q
  | waiting w => exact ⟨Nat.le_refl _, fun _ _ => Nat.le_refl _⟩
  | head first empty => exact .arm first empty ..

theorem State.armHead_sched (s : State) (o : OutletId) (d : Declaration) (b : BoundaryStamp) (c : ArmCause) (late : Bool) :
    ((s.armHead o d b c late).outlet o).sched = (s.outlet o).sched.arm d b c s.time.air late :=
  State.modSched_sched ..

theorem State.evaluate_arms (s : State) (o : OutletId) (cause : LateCause) :
    (s.outlet o).sched.Arms ((s.evaluate o cause).outlet o).sched := by
  unfold State.evaluate
  split
  · exact .same
  · rename_i d head
    split
    · exact .same
    · rename_i empty
      have armed : ∀ b c late, (s.outlet o).sched.Arms ((s.armHead o d b c late).outlet o).sched := fun b c late => by
        rw [State.armHead_sched]
        exact .head head (by simpa using empty) ..
      split
      · split
        · dsimp only
          rw [(Spreads.createAll (R := fun _ _ => False) _ _).sched id]
          exact armed _ _ _
        · exact .same
      · split
        · exact armed _ _ _
        · exact .same
      · exact .same

theorem State.testFollow_arms (s : State) (o : OutletId) : (s.outlet o).sched.Arms ((s.testFollow o).outlet o).sched := by
  unfold State.testFollow
  split
  · exact .same
  · rename_i d head
    split
    · split
      · rw [State.setWaiting, State.modSched_sched]
        exact .waiting _
      · rename_i empty
        rw [State.armFollow, State.armHead_sched]
        exact .head head (by simpa using empty) ..
    · exact .same

/-- The slot has emptied: at most the next head is armed, and no trigger waits any more (R46). -/
theorem State.slotEmptied_sched (s : State) (o : OutletId) :
    ∃ r : Sched, (s.outlet o).sched.Arms r ∧ ((s.slotEmptied o).outlet o).sched = { r with waiting := none } := by
  unfold State.slotEmptied
  dsimp only
  rw [State.modSched_sched]
  refine ⟨_, ?_, rfl⟩
  split
  · rw [(Spreads.raiseBoth (R := fun _ _ => False) s .queueEmpty).sched id]
    exact .same
  · exact s.evaluate_arms o _

/-! ### Closes (R45, R53) -/

/-- What ends before the segment closes: the sub-block and the gap. The schedule is none of it. -/
theorem State.ended_spreads (s : State) (o : OutletId) (close : CloseCause) (gap : GapCause) (stamp : AirTime) :
    Spreads (fun p x => p = o ∧ (x = .loud ∨ x = .subs ∨ x = .verdict)) s
      ((if close = .next then s.shortSubBlock o else s).closeGap o gap stamp) := by
  refine Spreads.trans ?_ (.closeGap _ ⟨rfl, .inr (.inl rfl)⟩ ⟨rfl, .inr (.inr rfl)⟩ _ _)
  split
  · exact .shortSubBlock s ⟨rfl, .inl rfl⟩ ⟨rfl, .inr (.inr rfl)⟩
  · exact .refl s

theorem State.closeSegment_sched (s : State) (o : OutletId) (close : CloseCause) (gap : GapCause) (stamp : AirTime) :
    ((s.closeSegment o close gap stamp).outlet o).sched = { (s.outlet o).sched with current := none } := by
  unfold State.closeSegment
  split
  · rename_i none
    exact congrArg (fun c => { (s.outlet o).sched with current := c }) none
  · dsimp only
    rw [State.outlet_modOutlet_same]
    exact congrArg (fun q : Sched => { q with current := none }) ((s.ended_spreads o close gap stamp).sched (by simp))

/-! ### The announcement (R44) -/

theorem State.announce_sched (s : State) (o : OutletId) (d : Declaration) (late : Bool) (stamp : AirTime) (rfn : Rfn) :
    ((s.announce o d late stamp rfn).outlet o).sched =
      { (s.outlet o).sched with current := some (s.newCurrent d late stamp rfn) } := by
  have later : Spreads (fun p x => p = o ∧ x ≠ .sched) (s.modSched o fun q => { q with current := some (s.newCurrent d late stamp rfn) })
      (s.announce o d late stamp rfn) := by
    unfold State.announce State.loadSubs State.loadExcursions State.clearShortTerm
    exact (((Spreads.modLoud _ ⟨rfl, nofun⟩ _).trans (.modSubs _ ⟨rfl, nofun⟩ _)).trans (.modVerdict _ ⟨rfl, nofun⟩ _)).trans
      (.setBreach _ ⟨rfl, nofun⟩ _)
  rw [later.sched fun h => h.2 rfl, State.modSched_sched]

/-! ### Breaks (R51 to R53) -/

/-- A kind under which a break may be open (R51, R53). -/
def SegKind.inBreak (k : SegKind) : Prop := k = .commercial ∨ k = .promo ∨ k = .junction

theorem opensBreak_iff (k : SegKind) : opensBreak k = true ↔ k = .commercial ∨ k = .promo := by
  cases k <;> decide

theorem inBreak_iff (k : SegKind) : (opensBreak k || k == .junction) = true ↔ k.inBreak := by
  simp [SegKind.inBreak, opensBreak_iff, or_assoc]

section
variable {s : State} {o : OutletId} {c : Current} (current : s.current o = some c) (stamp : AirTime)
include current

theorem State.stepBreak_of_opening (none : (s.outlet o).sched.brk = none) (opens : opensBreak c.decl.kind = true) :
    s.stepBreak o stamp =
      (s.modSched o fun q => { q with brk := some (s.openBreak c) }).modLoud o fun e => { e with brk := some emptyLoudRecord } := by
  unfold State.stepBreak
  simp only [current, none, opens, if_true]

theorem State.stepBreak_of_none (none : (s.outlet o).sched.brk = none) (other : opensBreak c.decl.kind ≠ true) :
    s.stepBreak o stamp = s := by
  unfold State.stepBreak
  simp only [current, none, other, if_false, Bool.false_eq_true]

theorem State.stepBreak_of_member {b : BreakRecord} (opened : (s.outlet o).sched.brk = some b) (member : c.decl.kind.inBreak) :
    s.stepBreak o stamp = s.modSched o fun q =>
      { q with brk := some { b with members := min 65535 (b.members + 1), lastMember := c.decl.id } } := by
  unfold State.stepBreak
  simp only [current, opened, (inBreak_iff _).mpr member, if_true]

theorem State.stepBreak_of_closing {b : BreakRecord} (opened : (s.outlet o).sched.brk = some b) (other : ¬c.decl.kind.inBreak) :
    s.stepBreak o stamp = s.closeBreak o .next stamp := by
  unfold State.stepBreak
  simp only [current, opened, mt (inBreak_iff _).mp other, if_false, Bool.false_eq_true]

end

theorem State.closeBreak_of_open {s : State} {o : OutletId} {b : BreakRecord} (opened : (s.outlet o).sched.brk = some b)
    (cause : CloseCause) (stamp : AirTime) :
    s.closeBreak o cause stamp = s.modOutlet o fun t =>
      { t with
        sched := { t.sched with brk := none }
        loud := { t.loud with brk := none }
        verdict := { t.verdict with
          brkSlot := some { brk := b, cause := cause, stamp := stamp, loud := (s.outlet o).loud.brk.getD emptyLoudRecord,
                            finalPeak := false } } } := by
  simp only [State.closeBreak, opened]

/-- The break of a schedule once a segment has become current and its first frame is counted (R51 to R53). -/
structure BreakAfter (s : State) (n : Current) (a : Arrival) (before after : Option BreakRecord) : Prop where
  opening : before = none → opensBreak n.decl.kind = true → after = some { s.openBreak n with lastStamp := a.stamp, lastRfn := a.rfn }
  none : before = none → opensBreak n.decl.kind ≠ true → after = none
  member : ∀ b : BreakRecord, before = some b → n.decl.kind.inBreak →
    after = some { b with members := min 65535 (b.members + 1), lastMember := n.decl.id, lastStamp := a.stamp, lastRfn := a.rfn }
  closing : before.isSome = true → ¬n.decl.kind.inBreak → after = .none

/-- A break is open only under a kind that it may be open under. -/
theorem BreakAfter.kind {s : State} {n : Current} {a : Arrival} {before after : Option BreakRecord} (h : BreakAfter s n a before after)
    (opened : after.isSome = true) : n.decl.kind.inBreak := by
  cases before with
  | none =>
    by_cases opens : opensBreak n.decl.kind = true
    · exact (inBreak_iff _).mp (by simp [opens])
    · rw [h.none rfl opens] at opened
      cases opened
  | some b =>
    refine Classical.byContradiction fun other => ?_
    rw [h.closing rfl other] at opened
    cases opened

/-! ### A segment becomes current (R43, R44, R47, R48) -/

/-- A segment made current, with the break it brings and its first frame counted. -/
def State.begin (s : State) (o : OutletId) (d : Declaration) (late : Bool) (a : Arrival) : State :=
  ((s.announce o d late a.stamp a.rfn).stepBreak o a.stamp).countFrame o a

/-- The segment that an arrival makes current, its first frame counted (R33, R44). -/
def State.begun (s : State) (d : Declaration) (late : Bool) (a : Arrival) : Current :=
  (s.newCurrent d late a.stamp a.rfn).count a

theorem State.enterSegment_eq (s : State) (o : OutletId) (m : Armed) (a : Arrival) :
    s.enterSegment o m a = ((s.modSched o fun q => { q with armed := none }).begin o m.decl m.lateStart a).slotEmptied o := rfl

theorem Spreads.announce_profiles (s : State) (o : OutletId) (d : Declaration) (late : Bool) (stamp : AirTime) (rfn : Rfn) :
    (s.announce o d late stamp rfn).profiles = s.profiles :=
  (Spreads.announce (R := fun _ _ => True) s trivial trivial trivial trivial d late stamp rfn).profiles

theorem State.openBreak_congr {s t : State} (h : t.profiles = s.profiles) (c : Current) : t.openBreak c = s.openBreak c := by
  unfold State.openBreak State.latestVersion State.latestProfile
  rw [h]

theorem State.begin_sched (s : State) (o : OutletId) (d : Declaration) (late : Bool) (a : Arrival) :
    ∃ b : Option BreakRecord, ((s.begin o d late a).outlet o).sched =
        { (s.outlet o).sched with current := some (s.begun d late a), brk := b } ∧
      BreakAfter s (s.newCurrent d late a.stamp a.rfn) a (s.outlet o).sched.brk b := by
  have announced := s.announce_sched o d late a.stamp a.rfn
  have profiles := Spreads.announce_profiles s o d late a.stamp a.rfn
  unfold State.begin State.countFrame State.begun
  generalize s.announce o d late a.stamp a.rfn = u at announced profiles
  generalize s.newCurrent d late a.stamp a.rfn = n at announced
  have current : u.current o = some n := by rw [State.current, announced]
  have brk : (u.outlet o).sched.brk = (s.outlet o).sched.brk := by rw [announced]
  rw [State.modSched_sched]
  cases before : (s.outlet o).sched.brk with
  | none =>
    rw [before] at brk
    by_cases opens : opensBreak n.decl.kind = true
    · refine ⟨some { s.openBreak n with lastStamp := a.stamp, lastRfn := a.rfn }, ?_, fun _ _ => rfl, fun _ other => absurd opens other,
        nofun, nofun⟩
      rw [State.stepBreak_of_opening current _ brk opens, State.modLoud, State.outlet_modOutlet_same]
      simp only [State.modSched_sched, announced, State.openBreak_congr profiles]
      rfl
    · refine ⟨none, ?_, fun _ k => absurd k opens, fun _ _ => rfl, nofun, nofun⟩
      rw [State.stepBreak_of_none current _ brk opens]
      simp only [announced, before]
      rfl
  | some b =>
    rw [before] at brk
    by_cases member : n.decl.kind.inBreak
    · refine ⟨some { b with members := min 65535 (b.members + 1), lastMember := n.decl.id, lastStamp := a.stamp, lastRfn := a.rfn }, ?_,
        nofun, nofun, fun x hx _ => by cases hx; rfl, fun _ other => absurd member other⟩
      rw [State.stepBreak_of_member current _ brk member, State.modSched_sched, announced]
      rfl
    · refine ⟨none, ?_, nofun, nofun, fun _ _ k => absurd k member, fun _ _ => rfl⟩
      rw [State.stepBreak_of_closing current _ brk member, State.closeBreak_of_open brk, State.outlet_modOutlet_same]
      simp only [announced]
      rfl

/-! ### Overrun (R49) -/

/-- A current segment after the test of its overrun (R49). -/
def Current.marked (c : Current) (past : Bool) : Current :=
  { c with overrun := c.overrun || past && !c.overrunReported, overrunReported := c.overrunReported || past }

theorem Current.marked_of_reported {c : Current} {past : Bool} (h : past = true → c.overrunReported = true) : c.marked past = c := by
  cases past with
  | false => simp [Current.marked]
  | true =>
    have reported := h rfl
    cases c
    simp_all [Current.marked]

/-- Is a current segment past its expected duration and its profile's grace, with the slot empty (R49)? -/
def State.overruns (s : State) (o : OutletId) (c : Current) : Bool :=
  decide (c.decl.duration ≠ 0 ∧ c.decl.duration + (s.profileOf c.version).overrunGrace ≤ c.frameCount ∧
    (s.outlet o).sched.armed = none)

theorem State.testOverrun_sched {s : State} {o : OutletId} {c : Current} (current : s.current o = some c) (stamp : AirTime) :
    ((s.testOverrun o stamp).outlet o).sched = { (s.outlet o).sched with current := some (c.marked (s.overruns o c)) } := by
  unfold State.testOverrun
  simp only [current]
  split
  · rename_i past
    obtain ⟨lasts, reached, empty, fresh⟩ := past
    have marked : s.overruns o c = true := by
      simp only [State.overruns, decide_eq_true_eq]
      exact ⟨lasts, reached, by simpa using empty⟩
    have quiet : c.overrunReported = false := by simpa using fresh
    rw [State.create_outlet, State.modSched_sched, marked]
    simp [Current.marked, quiet]
  · rename_i past
    have same : c.marked (s.overruns o c) = c := Current.marked_of_reported fun due => by
      simp only [State.overruns, decide_eq_true_eq] at due
      exact Classical.byContradiction fun fresh => past ⟨due.1, due.2.1, by simp [due.2.2], by simpa using fresh⟩
    rw [same, ← current]
    rfl

/-! ### A frame at the Scheduler (R33, R43, R47) -/

section
variable {s : State} {o : OutletId} {a : Arrival}

theorem State.schedule_of_boundary {m : Armed} (due : s.dueAt o a.stamp = some m) :
    s.schedule o false a = ((s.closeSegment o .next .segmentEnd a.stamp).enterSegment o m a).testOverrun o a.stamp := by
  unfold State.schedule
  rw [due]
  rfl

theorem State.schedule_of_armed {m : Armed} (due : s.dueAt o a.stamp = some m) :
    s.schedule o true a = (s.enterSegment o m a).testOverrun o a.stamp := by
  unfold State.schedule
  rw [due]
  rfl

theorem State.schedule_of_frame (due : s.dueAt o a.stamp = none) :
    s.schedule o false a = ((s.countFrame o a).testFollow o).testOverrun o a.stamp := by
  unfold State.schedule
  rw [due]
  rfl

theorem State.schedule_of_undeclared (due : s.dueAt o a.stamp = none) :
    s.schedule o true a = ((s.begin o s.undeclared false a).testFollow o).testOverrun o a.stamp := by
  unfold State.schedule
  rw [due]
  rfl

end

/-! ### The laws of the schedule across a frame (R32, R53) -/

/-- The segment that becomes current has the id of its declaration, or the id 0 as the UNDECLARED one (R44, R48). -/
theorem State.begun_id (s : State) (d : Declaration) (late : Bool) (a : Arrival) :
    (s.begun d late a).decl.id = d.id ∨ (s.begun d late a).decl.id = 0 := by
  unfold State.begun State.newCurrent
  by_cases undeclared : d.kind = .undeclared
  · exact .inr (by simp [Current.count, undeclared, State.undeclared])
  · exact .inl (by simp [Current.count, undeclared])

/-- The armed segment becomes current (R43). -/
theorem Sched.Shrinks.enter {q : Sched} {m : Armed} (armed : q.armed = some m) (n : Current) (b : Option BreakRecord)
    (id : n.decl.id = m.decl.id ∨ n.decl.id = 0) : q.Shrinks { q with armed := none, current := some n, brk := b } := by
  refine ⟨Nat.le_refl _, fun i hi => ?_⟩
  have other : 0#32 ≠ i := hi.symm
  obtain same | zero := id
  · simp only [Sched.ids, armed, same, List.count_append, Option.map_some, Option.map_none, Option.toList_some, Option.toList_none,
      List.count_nil, Nat.add_zero, Nat.le_add_right]
  · simp [Sched.ids, armed, zero, List.count_append, List.count_cons_of_ne other]

/-- The UNDECLARED segment becomes current (R48). -/
theorem Sched.Shrinks.undeclared (q : Sched) (n : Current) (b : Option BreakRecord) (zero : n.decl.id = 0) :
    q.Shrinks { q with current := some n, brk := b } := by
  refine ⟨Nat.le_refl _, fun i hi => ?_⟩
  have other : 0#32 ≠ i := hi.symm
  simp [Sched.ids, zero, List.count_append, List.count_cons_of_ne other]

theorem Sched.Shrinks.unwaiting (q : Sched) : q.Shrinks { q with waiting := none } :=
  ⟨Nat.le_refl _, fun _ _ => Nat.le_refl _⟩

theorem State.testOverrun_shrinks (s : State) (o : OutletId) (stamp : AirTime) :
    (s.outlet o).sched.Shrinks ((s.testOverrun o stamp).outlet o).sched := by
  cases current : s.current o with
  | none =>
    have same : s.testOverrun o stamp = s := by simp only [State.testOverrun, current]
    rw [same]
    exact .refl _
  | some c =>
    have kept : (s.outlet o).sched.current = some c := current
    have changed := Sched.Shrinks.modCurrent (s.outlet o).sched (fun c => c.marked (s.overruns o c)) fun _ => rfl
    rw [State.testOverrun_sched current]
    rwa [kept] at changed

/-- The schedule after the armed segment has become current: its first frame is counted, its break is stepped, and at most the next
head is armed (R43, R46). -/
theorem State.enterSegment_sched (s : State) (o : OutletId) (m : Armed) (a : Arrival) :
    ∃ (b : Option BreakRecord) (r : Sched),
      BreakAfter s (s.newCurrent m.decl m.lateStart a.stamp a.rfn) a (s.outlet o).sched.brk b ∧
      Sched.Arms { (s.outlet o).sched with armed := none, current := some (s.begun m.decl m.lateStart a), brk := b } r ∧
      ((s.enterSegment o m a).outlet o).sched = { r with waiting := none } := by
  rw [State.enterSegment_eq]
  obtain ⟨b, begun, after⟩ := (s.modSched o fun q => { q with armed := none }).begin_sched o m.decl m.lateStart a
  obtain ⟨r, arms, emptied⟩ := ((s.modSched o fun q => { q with armed := none }).begin o m.decl m.lateStart a).slotEmptied_sched o
  rw [begun, State.modSched_sched] at arms
  rw [State.modSched_sched] at after
  exact ⟨b, r, ⟨after.opening, after.none, after.member, after.closing⟩, arms, emptied⟩

theorem State.enterSegment_shrinks {s : State} {o : OutletId} {m : Armed} (armed : (s.outlet o).sched.armed = some m) (a : Arrival) :
    (s.outlet o).sched.Shrinks ((s.enterSegment o m a).outlet o).sched := by
  obtain ⟨b, r, -, arms, emptied⟩ := s.enterSegment_sched o m a
  rw [emptied]
  exact ((Sched.Shrinks.enter armed _ b (s.begun_id _ _ a)).trans arms.shrinks).trans (.unwaiting r)

theorem State.dueAt_eq_some {s : State} {o : OutletId} {stamp : AirTime} {m : Armed} :
    s.dueAt o stamp = some m ↔ (s.outlet o).sched.armed = some m ∧ m.boundary.met stamp = true := by
  simp [State.dueAt, Option.filter_eq_some_iff]

theorem State.dueAt_eq_none {s : State} {o : OutletId} {stamp : AirTime} :
    s.dueAt o stamp = none ↔ ∀ m : Armed, (s.outlet o).sched.armed = some m → m.boundary.met stamp = false := by
  simp [State.dueAt, Option.filter_eq_none_iff]

/-- A frame adds no segment id to its outlet's schedule but the id 0, and nothing to its queue. -/
theorem State.schedule_shrinks (s : State) (o : OutletId) (first : Bool) (a : Arrival) :
    (s.outlet o).sched.Shrinks ((s.schedule o first a).outlet o).sched := by
  cases due : s.dueAt o a.stamp with
  | some m =>
    obtain ⟨armed, -⟩ := State.dueAt_eq_some.mp due
    cases first with
    | true =>
      rw [State.schedule_of_armed due]
      exact (State.enterSegment_shrinks armed a).trans (State.testOverrun_shrinks _ _ _)
    | false =>
      rw [State.schedule_of_boundary due]
      have closed := s.closeSegment_sched o .next .segmentEnd a.stamp
      have still : ((s.closeSegment o .next .segmentEnd a.stamp).outlet o).sched.armed = some m := by rw [closed]; exact armed
      refine Sched.Shrinks.trans ?_ ((State.enterSegment_shrinks still a).trans (State.testOverrun_shrinks _ _ _))
      rw [closed]
      exact .of_sublist (Nat.le_refl _) ((List.Sublist.refl _).append (by simp))
  | none =>
    cases first with
    | true =>
      rw [State.schedule_of_undeclared due]
      obtain ⟨b, begun, -⟩ := s.begin_sched o s.undeclared false a
      have zero : (s.begun s.undeclared false a).decl.id = 0 := by
        simp [State.begun, State.newCurrent, State.undeclared, Current.count]
      have entered := Sched.Shrinks.undeclared (s.outlet o).sched _ b zero
      rw [← begun] at entered
      exact (entered.trans (State.testFollow_arms _ o).shrinks).trans (State.testOverrun_shrinks _ _ _)
    | false =>
      rw [State.schedule_of_frame due]
      refine Sched.Shrinks.trans ?_ ((State.testFollow_arms _ o).shrinks.trans (State.testOverrun_shrinks _ _ _))
      rw [State.countFrame, State.modSched_sched]
      refine (Sched.Shrinks.modCurrent (s.outlet o).sched (fun c => c.count a) fun _ => rfl).trans ?_
      exact ⟨Nat.le_refl _, fun _ _ => Nat.le_refl _⟩

/-- A schedule with a current segment, and a break open only under its kind (R32, R53). -/
def Sched.Running (q : Sched) : Prop := ∃ c : Current, q.current = some c ∧ (q.brk.isSome = true → c.decl.kind.inBreak)

theorem Sched.Arms.running {q r : Sched} (h : q.Arms r) (k : q.Running) : r.Running := by
  obtain ⟨c, current, kind⟩ := k
  obtain ⟨same, brk⟩ := h.frame
  exact ⟨c, by rw [same, current], by rwa [brk]⟩

theorem State.testOverrun_running {s : State} {o : OutletId} (h : (s.outlet o).sched.Running) (stamp : AirTime) :
    ((s.testOverrun o stamp).outlet o).sched.Running := by
  obtain ⟨c, current, kind⟩ := h
  rw [State.testOverrun_sched current]
  exact ⟨_, rfl, kind⟩

theorem State.enterSegment_running (s : State) (o : OutletId) (m : Armed) (a : Arrival) :
    ((s.enterSegment o m a).outlet o).sched.Running := by
  obtain ⟨b, r, after, arms, emptied⟩ := s.enterSegment_sched o m a
  rw [emptied]
  obtain ⟨c, current, kind⟩ := arms.running ⟨_, rfl, after.kind⟩
  exact ⟨c, current, kind⟩

/-- A frame leaves its outlet with a current segment, and a break open only under its kind (R32, R53). -/
theorem State.schedule_running (s : State) (o : OutletId) (first : Bool) (a : Arrival)
    (runs : first = false → (s.outlet o).sched.Running) : ((s.schedule o first a).outlet o).sched.Running := by
  cases due : s.dueAt o a.stamp with
  | some m =>
    cases first with
    | true =>
      rw [State.schedule_of_armed due]
      exact State.testOverrun_running (State.enterSegment_running _ _ _ _) _
    | false =>
      rw [State.schedule_of_boundary due]
      exact State.testOverrun_running (State.enterSegment_running _ _ _ _) _
  | none =>
    cases first with
    | true =>
      rw [State.schedule_of_undeclared due]
      obtain ⟨b, begun, after⟩ := s.begin_sched o s.undeclared false a
      refine State.testOverrun_running ((State.testFollow_arms _ o).running ?_) _
      rw [begun]
      exact ⟨_, rfl, after.kind⟩
    | false =>
      rw [State.schedule_of_frame due]
      refine State.testOverrun_running ((State.testFollow_arms _ o).running ?_) _
      obtain ⟨c, current, kind⟩ := runs rfl
      rw [State.countFrame, State.modSched_sched]
      exact ⟨c.count a, by rw [current]; rfl, fun opened => kind (by simpa using opened)⟩

end Sys2Proof.Machine
end

section
/-! An arrival: what it does to its own outlet's intake and schedule, and what it leaves of everything else (chapter 1). -/

namespace Sys2Proof.Machine

/-! ### The taking of a frame (R10 to R14) -/

/-- The state in which a frame's arrival is noted, before the Scheduler takes it (R10 to R13). -/
def State.arrived (s : State) (o : OutletId) (f : Treated) : State :=
  (s.modIntake o fun i => i.arrive f s.time.air).createAll (restoredDrafts o (s.outlet o).intake s.time.air)

theorem State.takeFrame_eq (s : State) (o : OutletId) (f : Treated) : s.takeFrame o f =
    (s.arrived o f).schedule o ((s.outlet o).intake.state == .waiting) (s.handOff o f).arrival := rfl

theorem Spreads.arrived (s : State) (o : OutletId) (f : Treated) :
    Spreads (fun p x => p = o ∧ x = .intake) s (s.arrived o f) :=
  (Spreads.modIntake s ⟨rfl, rfl⟩ _).trans (.createAll _ _)

theorem State.arrived_intake (s : State) (o : OutletId) (f : Treated) :
    ((s.arrived o f).outlet o).intake = (s.outlet o).intake.arrive f s.time.air := by
  rw [State.arrived, (Spreads.createAll (R := fun _ _ => False) _ _).intake id, State.modIntake, State.outlet_modOutlet_same]

theorem State.arrived_sched (s : State) (o : OutletId) (f : Treated) : ((s.arrived o f).outlet o).sched = (s.outlet o).sched :=
  (Spreads.arrived s o f).sched (by simp)

theorem State.takeFrame_intake (s : State) (o : OutletId) (f : Treated) :
    ((s.takeFrame o f).outlet o).intake = (s.outlet o).intake.arrive f s.time.air := by
  rw [State.takeFrame_eq, (Spreads.schedule (R := fun _ x => x ≠ .intake) _ nofun nofun nofun nofun _ _).intake (by simp),
    State.arrived_intake]

/-- What the three consumers may change, of one outlet. -/
theorem Spreads.consuming (s : State) (h : HandOff) (order : List Consumer) :
    Spreads (fun p x => p = h.outlet ∧ x ≠ .intake ∧ x ≠ .sched) s (order.foldl h.consume s) :=
  .consumers s h ⟨rfl, nofun, nofun⟩ ⟨rfl, nofun, nofun⟩ ⟨rfl, nofun, nofun⟩ ⟨rfl, nofun, nofun⟩ order

theorem State.arrive_intake (s : State) (o : OutletId) (f : Treated) (order : List Consumer) :
    ((s.arrive o f order).outlet o).intake = (s.outlet o).intake.arrive f s.time.air := by
  rw [State.arrive, (Spreads.consuming _ _ _).intake (by simp), State.takeFrame_intake]

theorem State.arrive_sched (s : State) (o : OutletId) (f : Treated) (order : List Consumer) :
    ((s.arrive o f order).outlet o).sched = ((s.takeFrame o f).outlet o).sched := by
  rw [State.arrive, (Spreads.consuming _ _ _).sched (by simp)]

/-! ### The command (R1) -/

theorem exec_arrival_of_on {s : State} {o : OutletId} (power : s.powered = true) (on : (s.outlet o).intake.state ≠ .off)
    (bytes : Bytes) :
    exec (.airFrameArrival o bytes) s = .next ((s.useFree 1).arrive o (treat o bytes) (consumerOrder s.free)).refresh := by
  show when _ _ s = _
  rw [when_next, if_pos (by simp [power, on])]

theorem exec_arrival_of_off {s : State} {o : OutletId} (off : (s.outlet o).intake.state = .off) (bytes : Bytes) :
    exec (.airFrameArrival o bytes) s = .next s := by
  show when _ _ s = _
  rw [when_next, if_neg (by simp [off])]

/-- An arrival does nothing, or is taken on an outlet that is not OFF. -/
theorem exec_arrival_cases {s t : State} {o : OutletId} {bytes : Bytes} (h : exec (.airFrameArrival o bytes) s = .next t) :
    t = s ∨ (s.outlet o).intake.state ≠ .off ∧
      t = ((s.useFree 1).arrive o (treat o bytes) (consumerOrder s.free)).refresh := by
  replace h : when (s.powered && (s.outlet o).intake.state != .off) _ s = .next t := h
  rw [when_next] at h
  cases h
  split
  · rename_i on
    exact .inr ⟨by simpa using (Bool.and_eq_true_iff.mp on).2, rfl⟩
  · exact .inl rfl

theorem State.useFree_outlet (s : State) (n : Nat) (o : OutletId) : (s.useFree n).outlet o = s.outlet o := rfl

/-! ### O11 and O12 -/

/-- The sequence that an arrival makes the expected one (R5). -/
theorem treat_nextExpected (o : OutletId) (bytes : Bytes) (expected : Option (BitVec 16)) :
    (∀ f : AirFrame, readFrame bytes = some f → (treat o bytes).nextExpected expected = some (f.sequence + 1)) ∧
      (readFrame bytes = none → (treat o bytes).nextExpected expected = expected.map fun e => e + 1) := by
  refine ⟨fun f read => ?_, fun none => ?_⟩
  · rw [treat_of_some read]
    rfl
  · rw [treat_of_none none]
    rfl

/-- The records an arrival on a LOST outlet brings start with RETURN_RESTORED (R13). -/
theorem State.arrive_restored {s : State} {o : OutletId} (lost : (s.outlet o).intake.state = .lost) (room : s.evidence.fifo.length < 64)
    (f : Treated) (order : List Consumer) :
    ∃ more : List EvidenceRecord, (s.arrive o f order).evidence.fifo = s.evidence.fifo ++
      { draft :=
          { outlet := some o, stamp := s.time.air,
            body := .returnRestored (s.outlet o).intake.rfn (s.outlet o).intake.lostTicks }
        sequence := s.evidence.sequence, lossBefore := s.evidence.lossPending } :: more := by
  have rest : Spreads (fun _ _ => True) (s.arrived o f) (s.arrive o f order) :=
    (Spreads.schedule _ trivial trivial trivial trivial _ _).trans (.consumers _ _ trivial trivial trivial trivial _)
  obtain ⟨more, fifo⟩ := rest.fifo
  refine ⟨more, ?_⟩
  rw [fifo, State.arrived, restoredDrafts, if_pos lost]
  show (s.evidence.create { outlet := some o, stamp := s.time.air, body := _ }).fifo ++ more = _
  rw [Evidence.create_room room]
  exact List.append_assoc _ _ _

/-- Settles O11: the intake is written once, and the rest of the frame only adds records. -/
theorem arrivalNumbered : Obligations.ArrivalNumbered := by
  refine ⟨fun s o bytes => ⟨fun off => exec_arrival_of_off off bytes, rfl⟩, fun s o bytes power on => ?_⟩
  refine ⟨_, exec_arrival_of_on power on bytes, ?_, fun lost room => ?_⟩
  · rw [State.refresh_outlet, State.arrive_intake]
    obtain ⟨read, unread⟩ := treat_nextExpected o bytes (s.outlet o).intake.expected
    show Intake.arrive (s.outlet o).intake _ _ = _
    unfold Intake.arrive
    split
    · rename_i f h
      rw [read f h]
      rfl
    · rename_i h
      rw [unread h]
      rfl
  · exact State.arrive_restored (s := s.useFree 1) lost room _ _

/-- Settles O12: an arrival spreads over the parts of its own outlet alone. -/
theorem portsIndependent : Obligations.PortsIndependent := by
  intro s t o bytes h
  obtain same | ⟨-, same⟩ := exec_arrival_cases h
  · rw [same]
    exact ⟨fun _ _ => rfl, fun l => rfl, fun n => rfl, rfl⟩
  · have spread : Spreads (fun p _ => p = o) s ((s.useFree 1).arrive o (treat o bytes) (consumerOrder s.free)) :=
      (Spreads.useFree s 1).trans (.arrive _ (fun _ => rfl) _ _)
    rw [same]
    generalize (s.useFree 1).arrive o (treat o bytes) (consumerOrder s.free) = u at spread
    refine ⟨fun p other => Outlet.eq_of_same fun x => spread.outlets p x other, fun l => ?_, spread.pages, spread.frame⟩
    have port := congrArg (fun p : LinkPort => { p with attention := (s.link l).attention }) (spread.links l)
    cases l <;> exact port

end Sys2Proof.Machine
end

section
/-! The laws of the schedules and of the outlet states, kept by every command (R1, R32, R53). -/

namespace Sys2Proof.Machine

/-! ### What the commands that do more leave of the outlets -/

/-- The parts of an outlet that ticks and frames measure are as they were. -/
def Outlet.Unmoved (t u : Outlet) : Prop := u.sched = t.sched ∧ u.loud = t.loud ∧ u.subs = t.subs

/-- These parts have their restart values. -/
def Outlet.Restored (u : Outlet) : Prop := u.sched = restSched ∧ u.loud = restLoud ∧ u.subs = restSubs

theorem State.freePort_unmoved (s : State) (o : OutletId) : (s.outlet o).Unmoved (s.freePort.outlet o) := by
  obtain ⟨-, same⟩ | ⟨p, -, same⟩ := s.freePort_cases
  · rw [same]
    exact ⟨rfl, rfl, rfl⟩
  · obtain ⟨w, outlet⟩ := (State.finishRestart_resumed { s with port := none } p true).outlet o
    rw [same, outlet]
    exact ⟨rfl, rfl, rfl⟩

theorem State.completeLoad_unmoved (s : State) (o : OutletId) : (s.outlet o).Unmoved (s.completeLoad.outlet o) := by
  rw [State.completeLoad_outlet]
  exact ⟨rfl, rfl, rfl⟩

theorem State.runRestart_restored (s : State) (reload : Bool) (tag : Tag) (o : OutletId) :
    ((s.runRestart reload tag).outlet o).Restored := by
  obtain ⟨u, p, -, closed, waits | ⟨cleared, goes, -⟩⟩ := s.runRestart_cases reload tag
  · rw [waits, (u.awaitBurst_frame p).1, closed]
    exact ⟨rfl, rfl, rfl⟩
  · obtain ⟨w, outlet⟩ := (u.finishRestart_resumed p cleared).outlet o
    rw [goes, outlet, closed]
    exact ⟨rfl, rfl, rfl⟩

/-- A command keeps all but its reach, or leaves every outlet's measurement as it was or at its restart values. -/
theorem Effect.parts {c : Instr} {s t : State} (e : Effect c s t) : Keeps (Instr.reach c) s t ∨
    ∀ o : OutletId, (s.outlet o).Unmoved (t.outlet o) ∨ (t.outlet o).Restored := by
  cases e with
  | kept k => exact .inl k
  | @burst u _ k _ =>
    refine .inr fun o => .inl ?_
    obtain ⟨sched, loud, subs⟩ := u.freePort_unmoved o
    exact ⟨sched.trans (k.outlets o .sched nofun), loud.trans (k.outlets o .loud nofun), subs.trans (k.outlets o .subs nofun)⟩
  | evidence _ _ => exact .inr fun o => .inl (State.freePort_unmoved (s.writeEvidence _) o)
  | writer _ _ => exact .inr fun o => .inl ⟨rfl, rfl, rfl⟩
  | region _ _ => exact .inr fun o => .inl ⟨rfl, rfl, rfl⟩
  | power i powered loading =>
    refine .inr fun o => .inr ?_
    have rest : ({ s.powerOnAt i with powered := powered, loading := loading }.refresh).outlet o = powerOnOutlet :=
      s.powerOnAt_outlet i o
    rw [rest]
    exact ⟨rfl, rfl, rfl⟩
  | load _ _ => exact .inr fun o => .inl (s.completeLoad_unmoved o)
  | @restart u k _ _ reload tag => exact .inr fun o => .inr (u.runRestart_restored reload tag o)

/-! ### Queues and segment ids (R32) -/

/-- The ids of an outlet's segments occur once each, but for the id 0. -/
theorem Sched.unique_iff (q : Sched) : (q.ids.filter fun id => id != 0).Nodup ↔ ∀ i : BitVec 32, i ≠ 0 → q.ids.count i ≤ 1 := by
  rw [List.nodup_iff_count_le_one]
  refine forall_congr' fun i => ?_
  by_cases zero : i = 0
  · have absent : i ∉ q.ids.filter fun id => id != 0 := by simp [zero]
    rw [List.count_eq_zero.mpr absent]
    exact ⟨fun _ other => absurd zero other, fun _ => Nat.zero_le _⟩
  · rw [List.count_filter (by simpa using zero)]
    exact ⟨fun once _ => once, fun once => once zero⟩

/-- A queue that a declaration lengthens, by an id that is new (R34). -/
structure Sched.Grows (q r : Sched) : Prop where
  room : q.queue.length < 16
  queue : r.queue.length ≤ q.queue.length + 1
  ids : ∃ d : BitVec 32, d ∉ q.ids ∧ ∀ i : BitVec 32, i ≠ 0 → r.ids.count i ≤ q.ids.count i + [d].count i

/-- A step's effect on an outlet's schedule: it shrinks, grows by a declaration, or has its restart values. -/
theorem exec_sched {c : Instr} {s t : State} (h : exec c s = .next t) (o : OutletId) :
    (s.outlet o).sched.Shrinks (t.outlet o).sched ∨ (s.outlet o).sched.Grows (t.outlet o).sched ∨
      (t.outlet o).sched = restSched := by
  obtain kept | special := (exec_effect h).parts
  · by_cases arrives : ∃ (p : OutletId) (bytes : Bytes), c = .airFrameArrival p bytes
    · obtain ⟨p, bytes, rfl⟩ := arrives
      by_cases other : o = p
      · subst other
        obtain same | ⟨-, same⟩ := exec_arrival_cases h
        · rw [same]
          exact .inl (.refl _)
        · rw [same, State.refresh_outlet, State.arrive_sched, State.takeFrame_eq]
          refine .inl ?_
          have shrinks := State.schedule_shrinks ((s.useFree 1).arrived o (treat o bytes)) o
            (((s.useFree 1).outlet o).intake.state == .waiting) ((s.useFree 1).handOff o (treat o bytes)).arrival
          rwa [State.arrived_sched, State.useFree_outlet] at shrinks
      · rw [arrival_rests kept other]
        exact .inl (.refl _)
    · by_cases declares : ∃ l : Link, c = .segDeclare l
      · obtain ⟨l, rfl⟩ := declares
        obtain rests | ⟨u, p, d, begun, fresh, room, ended⟩ := declare_rests h
        · exact .inl ((rests o).2.elim False.elim id)
        · have after := (ended o).2.elim False.elim id
          have before : ∀ p : OutletId, u.outlet p = s.outlet p := fun p => by rw [State.outlet, State.outlet, begun]
          by_cases here : o = p
          · subst here
            rw [State.modSched_sched, before] at after
            rw [before] at fresh room
            refine .inr (.inl ⟨room, ?_, d.id, fresh, fun i hi => (after.ids i hi).trans ?_⟩)
            · exact after.queue.trans (by rw [List.length_append]; exact Nat.le_refl _)
            · simp only [Sched.ids, List.map_append, List.count_append, List.map_cons, List.map_nil]
              omega
          · rw [State.modSched, State.outlet_modOutlet_of_ne u here, before] at after
            exact .inl after
      · exact .inl (((exec_rests (G := False) h kept (fun o b e => arrives ⟨o, b, e⟩) (fun l e => declares ⟨l, e⟩)) o).2.elim
          False.elim id)
  · obtain ⟨same, -⟩ | ⟨same, -⟩ := special o
    · rw [same]
      exact .inl (.refl _)
    · exact .inr (.inr same)

/-- Settles O5: the tables are bounded where they grow, and a queue grows only by a declaration, where it has room. -/
theorem boundsKept : Obligations.BoundsKept := by
  intro s t bounds taken
  obtain idles | ⟨c, rest, -, same⟩ := step_cases s
  · cases idles.symm.trans taken
    exact bounds
  rw [same] at taken
  obtain ⟨ports, fifo, holds, queues⟩ := bounds
  have fits : TablesFit { s with pending := rest } := ⟨fun l => ⟨(ports l).1, (ports l).2.1, (ports l).2.2⟩, fifo, holds⟩
  obtain ⟨ports', fifo', holds'⟩ := (exec_effect taken).tables fits
  refine ⟨fun l => ⟨(ports' l).outstanding, (ports' l).deferred, (ports' l).givenUp⟩, fifo', holds', fun o => ?_⟩
  obtain shrinks | grows | restored := exec_sched taken o
  · exact shrinks.queue.trans (queues o)
  · have room := grows.room
    have longer := grows.queue
    omega
  · rw [restored]
    exact Nat.zero_le _

/-- Settles O7: an id is declared only where it is new, and otherwise ids only leave a schedule. -/
theorem segmentIdsKept : Obligations.SegmentIdsKept := by
  intro s t unique taken o
  obtain idles | ⟨c, rest, -, same⟩ := step_cases s
  · cases idles.symm.trans taken
    exact unique o
  rw [same] at taken
  have before := (Sched.unique_iff _).mp (unique o)
  refine (Sched.unique_iff _).mpr fun i hi => ?_
  obtain shrinks | grows | restored := exec_sched taken o
  · exact (shrinks.ids i hi).trans (before i hi)
  · obtain ⟨d, fresh, ids⟩ := grows.ids
    refine (ids i hi).trans ?_
    by_cases declared : i = d
    · subst declared
      have absent : (s.outlet o).sched.ids.count i = 0 := List.count_eq_zero.mpr fresh
      have once : [i].count i = 1 := List.count_singleton_self
      show (s.outlet o).sched.ids.count i + [i].count i ≤ 1
      omega
    · have other : [d].count i = 0 := List.count_eq_zero.mpr (by simpa using declared)
      have few := before i hi
      show (s.outlet o).sched.ids.count i + [d].count i ≤ 1
      omega
  · rw [restored]
    exact Nat.zero_le _

end Sys2Proof.Machine
end

section
/-! The outlet states and their current segments, kept by every command (R1, R15, R32, R53). -/

namespace Sys2Proof.Machine

/-! ### One outlet -/

/-- An outlet has a current segment exactly in ACTIVE and LOST, and a break open only under its kind (R32, R53). -/
def Outlet.Lawful (t : Outlet) : Prop :=
  (t.sched.current.isSome = true ↔ (t.intake.state = .active ∨ t.intake.state = .lost)) ∧
    ∀ b : BreakRecord, t.sched.brk = some b →
      ∃ c : Current, t.sched.current = some c ∧ (c.decl.kind = .commercial ∨ c.decl.kind = .promo ∨ c.decl.kind = .junction)

/-- An outlet in OFF or WAITING with no current segment and no open break. -/
theorem Outlet.Lawful.of_idle {t : Outlet} (current : t.sched.current = none) (brk : t.sched.brk = none)
    (active : t.intake.state ≠ .active) (lost : t.intake.state ≠ .lost) : t.Lawful := by
  refine ⟨?_, fun b opened => ?_⟩
  · simp [current, active, lost]
  · rw [brk] at opened
    cases opened

/-- An outlet that is OFF has no current segment and no open break. -/
theorem Outlet.Lawful.idle {t : Outlet} (h : t.Lawful) (off : t.intake.state = .off) : t.sched.current = none ∧ t.sched.brk = none := by
  have current : t.sched.current = none := by
    refine Option.not_isSome_iff_eq_none.mp fun some => ?_
    obtain active | lost := h.1.mp some
    · rw [off] at active
      cases active
    · rw [off] at lost
      cases lost
  refine ⟨current, Option.not_isSome_iff_eq_none.mp fun opened => ?_⟩
  obtain ⟨b, hb⟩ := Option.isSome_iff_exists.mp opened
  obtain ⟨c, hc, -⟩ := h.2 b hb
  rw [current] at hc
  cases hc

/-- Between its frames an outlet stays lawful, and an OFF outlet OFF. -/
theorem Outlet.Lawful.proceeds {t u : Outlet} (h : t.Lawful) (p : t.Proceeds u) : u.Lawful := by
  have some : u.sched.current.isSome = t.sched.current.isSome := by
    simpa using congrArg Option.isSome p.current
  refine ⟨?_, fun b opened => ?_⟩
  · rw [some, h.1]
    obtain same | ⟨active, lost⟩ := p.state
    · rw [same]
    · simp [active, lost]
  · rw [p.brk] at opened
    obtain ⟨c, hc, kind⟩ := h.2 b opened
    have core := p.current
    rw [hc] at core
    obtain ⟨d, hd, same⟩ := Option.map_eq_some_iff.mp core
    have decl : d.decl = c.decl := congrArg Prod.fst same
    exact ⟨d, hd, by rwa [decl]⟩

theorem Outlet.Proceeds.off {t u : Outlet} (p : t.Proceeds u) (off : t.intake.state = .off) : u.intake.state = .off := by
  obtain same | ⟨active, -⟩ := p.state
  · rw [same, off]
  · rw [off] at active
    cases active

theorem Sched.Running.lawful {t : Outlet} (h : t.sched.Running) (active : t.intake.state = .active) : t.Lawful := by
  obtain ⟨c, current, kind⟩ := h
  exact ⟨by simp [current, active], fun b opened => ⟨c, current, kind (by simp [opened])⟩⟩

/-- A lawful outlet in ACTIVE or LOST has a running schedule. -/
theorem Outlet.Lawful.running {t : Outlet} (h : t.Lawful) (on : t.intake.state = .active ∨ t.intake.state = .lost) :
    t.sched.Running := by
  obtain ⟨c, current⟩ := Option.isSome_iff_exists.mp (h.1.mpr on)
  refine ⟨c, current, fun opened => ?_⟩
  obtain ⟨b, hb⟩ := Option.isSome_iff_exists.mp opened
  obtain ⟨d, hd, kind⟩ := h.2 b hb
  cases current.symm.trans hd
  exact kind

/-! ### The state -/

theorem OutletLaws.lawful {s : State} (h : OutletLaws s) (o : OutletId) : (s.outlet o).Lawful := ⟨h.1 o, h.2.1 o⟩

theorem OutletLaws.of_lawful {s : State} (lawful : ∀ o : OutletId, (s.outlet o).Lawful)
    (off : s.loading = true ∨ s.restarting.isSome = true → ∀ o : OutletId, (s.outlet o).intake.state = .off)
    (alone : s.loading = true → s.restarting = none) : OutletLaws s :=
  ⟨fun o => (lawful o).1, fun o => (lawful o).2, off, alone⟩

/-- Where every outlet proceeds and neither loading nor the wait of a restart changes, the laws stay. -/
theorem OutletLaws.proceeds {s t : State} (h : OutletLaws s) (p : ∀ o : OutletId, (s.outlet o).Proceeds (t.outlet o))
    (loading : t.loading = s.loading) (restarting : t.restarting.isSome = s.restarting.isSome) : OutletLaws t := by
  refine .of_lawful (fun o => (h.lawful o).proceeds (p o)) (fun either o => (p o).off (h.2.2.1 ?_ o)) fun loads => ?_
  · rwa [← loading, ← restarting]
  · have none := h.2.2.2 (loading ▸ loads)
    rw [none] at restarting
    simpa using restarting

theorem OutletLaws.of_rests {G : Prop} {R : OutletId → Part → Prop} {s t : State} (h : OutletLaws s) (k : Keeps R s t)
    (r : Rests G s t) : OutletLaws t :=
  h.proceeds (fun o => (r o).1) k.loading k.restarting

theorem returnedState_idle (st : OutletSettings) : returnedState st ≠ .active ∧ returnedState st ≠ .lost := by
  unfold returnedState
  split <;> exact ⟨nofun, nofun⟩

/-- After a restart or the end of loading the outlets have returned, and none has a current segment. -/
theorem OutletLaws.of_returned {s : State} (idle : ∀ o : OutletId, (s.outlet o).sched.current = none ∧ (s.outlet o).sched.brk = none)
    (state : ∀ o : OutletId, ∃ st : OutletSettings, (s.outlet o).intake.state = returnedState st)
    (loading : s.loading = false) (ready : s.restarting = none) : OutletLaws s := by
  refine .of_lawful (fun o => ?_) (fun either => ?_) fun _ => ready
  · obtain ⟨st, same⟩ := state o
    have rest := returnedState_idle st
    exact .of_idle (idle o).1 (idle o).2 (by rw [same]; exact rest.1) (by rw [same]; exact rest.2)
  · simp [loading, ready] at either

theorem OutletLaws.of_resumed {s t : State} (r : Resumed s t)
    (idle : ∀ o : OutletId, (s.outlet o).sched.current = none ∧ (s.outlet o).sched.brk = none) (loading : s.loading = false) :
    OutletLaws t := by
  refine .of_returned (fun o => ?_) (fun o => ?_) (r.loading.trans loading) r.ready
  · obtain ⟨w, outlet⟩ := r.outlet o
    rw [outlet]
    exact idle o
  · obtain ⟨w, outlet⟩ := r.outlet o
    exact ⟨t.outletSettings o, congrArg (fun x : Outlet => x.intake.state) outlet⟩

theorem OutletLaws.freePort {s : State} (h : OutletLaws s) : OutletLaws s.freePort := by
  obtain ⟨-, same⟩ | ⟨p, waits, same⟩ := s.freePort_cases
  · rw [same]
    exact h
  · rw [same]
    have waiting : s.restarting.isSome = true := by rw [waits]; rfl
    refine .of_resumed (State.finishRestart_resumed { s with port := none } p true)
      (fun o => (h.lawful o).idle (h.2.2.1 (.inr waiting) o)) ?_
    refine Bool.eq_false_iff.mpr fun loads => ?_
    rw [h.2.2.2 loads] at waiting
    cases waiting

theorem OutletLaws.completeLoad {s : State} (h : OutletLaws s) (loading : s.loading = true) : OutletLaws s.completeLoad := by
  refine .of_returned (fun o => ?_) (fun o => ?_) ?_ ?_
  · rw [(s.completeLoad_unmoved o).1]
    exact (h.lawful o).idle (h.2.2.1 (.inl loading) o)
  · exact ⟨s.completeLoad.outletSettings o, congrArg (fun x : Outlet => x.intake.state) (s.completeLoad_outlet o)⟩
  · obtain ⟨u, -, same⟩ := s.completeLoad_cases
    rw [same]
    rfl
  · obtain ⟨u, kept, same⟩ := s.completeLoad_cases
    have waits := kept.restarting
    rw [h.2.2.2 loading] at waits
    rw [same]
    exact (Option.not_isSome_iff_eq_none.mp (by simp [waits]) : u.restarting = none)

theorem OutletLaws.runRestart (s : State) (reload : Bool) (tag : Tag) (loading : s.loading = false) :
    OutletLaws (s.runRestart reload tag) := by
  obtain ⟨u, p, kept, closed, waits | ⟨cleared, goes, -⟩⟩ := s.runRestart_cases reload tag
  · have outlet : ∀ o : OutletId, (u.awaitBurst p).outlet o = _ := fun o => ((u.awaitBurst_frame p).1 o).trans (closed o)
    rw [waits]
    refine .of_lawful (fun o => ?_) (fun _ o => ?_) fun loads => ?_
    · rw [outlet]
      exact .of_idle rfl rfl nofun nofun
    · rw [outlet]
      rfl
    · rw [(u.awaitBurst_frame p).2.1, kept.loading, loading] at loads
      cases loads
  · rw [goes]
    refine .of_resumed (u.finishRestart_resumed p cleared) (fun o => ?_) (kept.loading.trans loading)
    rw [closed]
    exact ⟨rfl, rfl⟩

theorem OutletLaws.powerOnAt (s : State) (t : Instant) (powered loading : Bool) :
    OutletLaws { s.powerOnAt t with powered := powered, loading := loading } := by
  have rest : ∀ o : OutletId, State.outlet { s.powerOnAt t with powered := powered, loading := loading } o = powerOnOutlet :=
    s.powerOnAt_outlet t
  refine .of_lawful (fun o => ?_) (fun _ o => ?_) fun _ => rfl
  · rw [rest]
    exact .of_idle rfl rfl nofun nofun
  · rw [rest]
    rfl

/-- A frame leaves its own outlet ACTIVE, with a current segment. -/
theorem State.arrive_lawful {s : State} {o : OutletId} (h : (s.outlet o).Lawful) (on : (s.outlet o).intake.state ≠ .off) (f : Treated)
    (order : List Consumer) : ((s.arrive o f order).outlet o).Lawful := by
  refine Sched.Running.lawful ?_ (by rw [State.arrive_intake]; rfl)
  rw [State.arrive_sched, State.takeFrame_eq]
  refine State.schedule_running _ o _ _ fun later => ?_
  rw [State.arrived_sched]
  refine h.running ?_
  have waits : (s.outlet o).intake.state ≠ .waiting := by simpa using later
  cases state : (s.outlet o).intake.state with
  | off => exact absurd state on
  | waiting => exact absurd state waits
  | active => exact .inl rfl
  | lost => exact .inr rfl

theorem OutletLaws.arrival {s t : State} {o : OutletId} {bytes : Bytes} (h : OutletLaws s)
    (taken : exec (.airFrameArrival o bytes) s = .next t) (k : Keeps (Instr.reach (.airFrameArrival o bytes)) s t) : OutletLaws t := by
  obtain same | ⟨on, same⟩ := exec_arrival_cases taken
  · rw [same]
    exact h
  have quiet : ¬(s.loading = true ∨ s.restarting.isSome = true) := fun either => on (h.2.2.1 either o)
  have still : ¬(t.loading = true ∨ t.restarting.isSome = true) := by rwa [k.loading, k.restarting]
  refine .of_lawful (fun p => ?_) (fun either => absurd either still) fun loads => absurd (.inl loads) still
  by_cases here : p = o
  · subst here
    rw [same, State.refresh_outlet]
    exact State.arrive_lawful (s := s.useFree 1) (h.lawful p) on _ _
  · rw [arrival_rests k here]
    exact h.lawful p

/-- Every command keeps the outlet laws. -/
theorem exec_outletLaws {c : Instr} {s t : State} (h : OutletLaws s) (taken : exec c s = .next t) : OutletLaws t := by
  cases exec_effect taken with
  | kept k =>
    by_cases arrives : ∃ (o : OutletId) (bytes : Bytes), c = .airFrameArrival o bytes
    · obtain ⟨o, bytes, rfl⟩ := arrives
      exact h.arrival taken k
    · by_cases declares : ∃ l : Link, c = .segDeclare l
      · obtain ⟨l, rfl⟩ := declares
        exact h.of_rests k (declare_proceeds taken)
      · exact h.of_rests k (exec_rests (G := True) taken k (fun o b e => arrives ⟨o, b, e⟩) fun l e => declares ⟨l, e⟩)
  | burst _ k _ => exact (h.of_rests k (.of_keeps (G := True) k fun _ _ r => .inr r)).freePort
  | @evidence n _ _ => exact (show OutletLaws (s.writeEvidence n) from h).freePort
  | writer _ _ => exact h
  | region _ _ => exact h
  | power i powered loading => exact OutletLaws.powerOnAt s i powered loading
  | load _ loading => exact h.completeLoad loading
  | restart _ loaded _ reload tag => exact OutletLaws.runRestart _ reload tag loaded

/-- Settles O6: every command's effect keeps the laws. -/
theorem outletLawsKept : Obligations.OutletLawsKept := by
  intro s t h taken
  obtain idles | ⟨c, rest, -, same⟩ := step_cases s
  · cases idles.symm.trans taken
    exact h
  · exact exec_outletLaws (s := { s with pending := rest }) h (same.symm.trans taken)

end Sys2Proof.Machine
end

section
/-! The Subtitle Checker's work on a frame (chapter 5): what each unit does, what the units of a frame do together, and the gap timer. -/

namespace Sys2Proof.Machine

/-! ### What the Subtitle Checker's operations leave -/

/-- Two states that differ at most in the subtitles and the breach line of one outlet, in the evidence and in the links. -/
structure Checks (o : OutletId) (s t : State) : Prop where
  frame : { t with outlets := s.outlets, evidence := s.evidence, links := s.links } = s
  others : ∀ p : OutletId, p ≠ o → t.outlet p = s.outlet p
  outlet : { t.outlet o with subs := (s.outlet o).subs, verdict := (s.outlet o).verdict } = s.outlet o

section
variable {o : OutletId}

theorem Checks.refl (s : State) : Checks o s s := ⟨rfl, fun _ _ => rfl, rfl⟩

theorem Checks.trans {s t u : State} (h : Checks o s t) (k : Checks o t u) : Checks o s u := by
  refine ⟨?_, fun p other => (k.others p other).trans (h.others p other), ?_⟩
  · have step := congrArg (fun v : State => { v with outlets := s.outlets, evidence := s.evidence, links := s.links }) k.frame
    exact step.trans h.frame
  · have step := congrArg (fun t : Outlet => { t with subs := (s.outlet o).subs, verdict := (s.outlet o).verdict }) k.outlet
    exact step.trans h.outlet

theorem Checks.current {s t : State} (h : Checks o s t) : t.current o = s.current o :=
  (congrArg (fun t : Outlet => t.sched.current) h.outlet :)

theorem Checks.settings {s t : State} (h : Checks o s t) : t.settings = s.settings := (congrArg State.settings h.frame :)

theorem Checks.modSubs (s : State) (f : Subs → Subs) : Checks o s (s.modSubs o f) := by
  refine ⟨rfl, fun p other => State.outlet_modOutlet_of_ne s other _, ?_⟩
  rw [State.modSubs, State.outlet_modOutlet_same]

theorem Checks.modVerdict (s : State) (f : VerdictUnit → VerdictUnit) : Checks o s (s.modVerdict o f) := by
  refine ⟨rfl, fun p other => State.outlet_modOutlet_of_ne s other _, ?_⟩
  rw [State.modVerdict, State.outlet_modOutlet_same]

theorem Checks.create (s : State) (d : Draft) : Checks o s (s.create d) := ⟨rfl, fun _ _ => rfl, rfl⟩

theorem Checks.raiseBoth (s : State) (x : Flag) : Checks o s (s.raiseBoth x) := ⟨rfl, fun _ _ => rfl, rfl⟩

theorem Checks.reportGap (s : State) (opened : Bool) : Checks o s (s.reportGap o opened) := by
  unfold State.reportGap State.setBreach
  dsimp only
  split
  · exact (Checks.modVerdict s _).trans (.raiseBoth _ _)
  · exact .modVerdict s _

end

@[simp] theorem State.modSubs_subs (s : State) (o : OutletId) (f : Subs → Subs) :
    ((s.modSubs o f).outlet o).subs = f (s.outlet o).subs := by
  rw [State.modSubs, State.outlet_modOutlet_same]

@[simp] theorem State.reportGap_subs (s : State) (o : OutletId) (opened : Bool) :
    ((s.reportGap o opened).outlet o).subs = (s.outlet o).subs :=
  (Spreads.setBreach (R := fun _ x => x = .verdict) s rfl _).subs nofun

@[simp] theorem State.reportGap_evidence (s : State) (o : OutletId) (opened : Bool) :
    (s.reportGap o opened).evidence = s.evidence := by
  unfold State.reportGap State.setBreach
  dsimp only
  split <;> rfl

/-! ### The close of a gap (R87) -/

/-- A Subtitle Checker whose open gap, if there is one, has closed. -/
def Subs.closed (b : Subs) : Subs :=
  match b.gap with
  | some g => { b.modRecord fun r => { r with longestGap := max r.longestGap g.length } with gap := none }
  | none => b

theorem Subs.closed_of_open {b : Subs} {g : OpenGap} (h : b.gap = some g) :
    b.closed = { b.modRecord fun r => { r with longestGap := max r.longestGap g.length } with gap := none } := by
  rw [Subs.closed, h]

theorem Subs.closed_of_none {b : Subs} (h : b.gap = none) : b.closed = b := by
  rw [Subs.closed, h]

theorem Subs.closed_rest (b : Subs) :
    b.closed.gap = none ∧ b.closed.timer = b.timer ∧ b.closed.limit = b.limit ∧ b.closed.showing = b.showing := by
  cases gap : b.gap with
  | none => rw [Subs.closed_of_none gap]; exact ⟨gap, rfl, rfl, rfl⟩
  | some g => rw [Subs.closed_of_open gap]; exact ⟨rfl, rfl, rfl, rfl⟩

theorem Checks.closeGap (s : State) (o : OutletId) (cause : GapCause) (stop : AirTime) : Checks o s (s.closeGap o cause stop) := by
  unfold State.closeGap
  split
  · exact (((Checks.modSubs s _).trans (.create _ _)).trans (.reportGap _ _)).trans (.modSubs _ _)
  · exact .refl s

section
variable {s : State} {o : OutletId}

theorem State.closeGap_of_none (none : (s.outlet o).subs.gap = none) (cause : GapCause) (stop : AirTime) :
    s.closeGap o cause stop = s := by
  unfold State.closeGap
  rw [none]

/-- An open gap under a current segment closes with its record (R87). -/
theorem State.closeGap_of_open {c : Current} {g : OpenGap} (current : s.current o = some c) (opened : (s.outlet o).subs.gap = some g)
    (cause : GapCause) (stop : AirTime) :
    ((s.closeGap o cause stop).outlet o).subs = (s.outlet o).subs.closed ∧
      (s.closeGap o cause stop).evidence = s.evidence.create (gapDraft o c (s.outlet o).subs.limit g cause stop) := by
  unfold State.closeGap
  simp only [current, opened]
  constructor
  · rw [State.modSubs_subs, State.reportGap_subs, State.create_outlet, State.modSubs_subs, Subs.closed_of_open opened]
  · exact State.reportGap_evidence _ _ _

theorem State.closeGap_subs {c : Current} (current : s.current o = some c) (cause : GapCause) (stop : AirTime) :
    ((s.closeGap o cause stop).outlet o).subs = (s.outlet o).subs.closed := by
  cases gap : (s.outlet o).subs.gap with
  | none => rw [State.closeGap_of_none gap, Subs.closed_of_none gap]
  | some g => exact (State.closeGap_of_open current gap cause stop).1

end

/-! ### One unit (R77 to R83) -/

/-- Is a unit of an outlet's service, and of a defined kind (R77)? -/
def SubUnit.relevant (u : SubUnit) (service : Nat) : Bool :=
  decide (1 ≤ u.kind.toNat ∧ u.kind.toNat ≤ 3 ∧ u.service.toNat = service)

/-- Is a unit in the language of a segment (R78)? -/
def SubUnit.spoken (u : SubUnit) (language : Option Language) : Bool := decide (language = none ∨ language = some u.language)

/-- What a unit shows (R80). -/
def SubUnit.display (showing : Bool) (u : SubUnit) : Bool := if u.kind = 1 then true else if u.kind = 2 then false else showing

theorem unitKind_eq_none {u : SubUnit} (h : unitKind u = none) : ¬(1 ≤ u.kind.toNat ∧ u.kind.toNat ≤ 3) := by
  unfold unitKind at h
  split at h
  · cases h
  · cases h
  · cases h
  · rename_i one two three
    rintro ⟨low, high⟩
    have some : u.kind.toNat = 1 ∨ u.kind.toNat = 2 ∨ u.kind.toNat = 3 := by omega
    exact some.elim one fun some => some.elim two three

theorem unitKind_eq_some {u : SubUnit} {k : UnitKind} (h : unitKind u = some k) :
    (1 ≤ u.kind.toNat ∧ u.kind.toNat ≤ 3) ∧ ∀ showing : Bool, Machine.display showing k = u.display showing := by
  have kinds : ∀ n : Nat, n < 256 → (u.kind.toNat = n ↔ u.kind = BitVec.ofNat 8 n) := fun n hn => by
    rw [← BitVec.toNat_inj, BitVec.toNat_ofNat, Nat.mod_eq_of_lt hn]
  have show1 := kinds 1 (by decide)
  have show2 := kinds 2 (by decide)
  unfold unitKind at h
  split at h
  · rename_i one
    cases h
    exact ⟨by omega, fun _ => by simp [Machine.display, SubUnit.display, show1.mp one]⟩
  · rename_i two
    cases h
    exact ⟨by omega, fun _ => by simp [Machine.display, SubUnit.display, show2.mp two]⟩
  · rename_i three
    cases h
    refine ⟨by omega, fun _ => ?_⟩
    have not1 : u.kind ≠ 1#8 := fun e => by simp [e] at three
    have not2 : u.kind ≠ 2#8 := fun e => by simp [e] at three
    simp [Machine.display, SubUnit.display, not1, not2]
  · cases h

/-- A Subtitle Checker after a valid unit (R79 step 2). -/
def Subs.afterValid (b : Subs) (u : SubUnit) : Subs :=
  { b.closed with showing := u.display b.showing, timer := reloaded b.timer b.limit }

/-- A Subtitle Checker after a unit in a wrong language (R78). -/
def Subs.afterWrong (b : Subs) : Subs := b.modRecord fun r => { r with wrongLanguage := satAdd max32 r.wrongLanguage 1 }

theorem Checks.takeSubUnit (s : State) (o : OutletId) (c : Current) (a : AirTime) (u : SubUnit) :
    Checks o s (s.takeSubUnit o c a u) := by
  unfold State.takeSubUnit
  split
  · exact .refl s
  · split
    · exact .refl s
    · split
      · exact (Checks.closeGap s o _ _).trans (.modSubs _ _)
      · exact .modSubs s _

section
variable {s : State} {o : OutletId} {c : Current} {a : AirTime} {u : SubUnit}

theorem State.takeSubUnit_of_irrelevant (h : u.relevant (s.outletSettings o).subtitleService = false) : s.takeSubUnit o c a u = s := by
  simp only [SubUnit.relevant, decide_eq_false_iff_not] at h
  unfold State.takeSubUnit
  split
  · rfl
  · rename_i k kind
    split
    · rfl
    · rename_i service
      obtain ⟨range, -⟩ := unitKind_eq_some kind
      exact absurd ⟨range.1, range.2, not_not.mp service⟩ h

/-- A unit of the outlet's service and of a defined kind is valid, or in a wrong language. -/
theorem State.takeSubUnit_of_relevant (h : u.relevant (s.outletSettings o).subtitleService = true) :
    ∃ k : UnitKind, unitKind u = some k ∧ s.takeSubUnit o c a u =
      if u.spoken c.decl.language = true then s.validUnit o a k
      else s.modSubs o fun b => b.modRecord fun r => { r with wrongLanguage := satAdd max32 r.wrongLanguage 1 } := by
  simp only [SubUnit.relevant, decide_eq_true_eq] at h
  obtain ⟨low, high, service⟩ := h
  cases kind : unitKind u with
  | none => exact absurd ⟨low, high⟩ (unitKind_eq_none kind)
  | some k =>
    refine ⟨k, rfl, ?_⟩
    unfold State.takeSubUnit
    rw [kind]
    simp only [service, ne_eq, not_true_eq_false, if_false, SubUnit.spoken, decide_eq_true_eq]

theorem State.takeSubUnit_of_wrong (h : u.relevant (s.outletSettings o).subtitleService = true)
    (wrong : u.spoken c.decl.language = false) : s.takeSubUnit o c a u = s.modSubs o Subs.afterWrong := by
  obtain ⟨k, -, taken⟩ := State.takeSubUnit_of_relevant (c := c) (a := a) h
  rw [taken, wrong]
  rfl

theorem State.takeSubUnit_of_valid (h : u.relevant (s.outletSettings o).subtitleService = true)
    (valid : u.spoken c.decl.language = true) (current : s.current o = some c) :
    ((s.takeSubUnit o c a u).outlet o).subs = (s.outlet o).subs.afterValid u ∧
      (s.takeSubUnit o c a u).evidence = (s.closeGap o .unit a).evidence := by
  obtain ⟨k, kind, taken⟩ := State.takeSubUnit_of_relevant (c := c) (a := a) h
  rw [taken, if_pos valid]
  obtain ⟨-, timer, limit, showing⟩ := (s.outlet o).subs.closed_rest
  constructor
  · rw [State.validUnit, State.modSubs_subs, State.closeGap_subs current, Subs.afterValid, timer, limit, showing,
      (unitKind_eq_some kind).2]
  · rfl

end

/-! ### The units of a frame -/

/-- The evidence once the gap that was open has closed at a unit, if one was valid (R87). -/
def unitEvidence (s : State) (o : OutletId) (c : Current) (a : AirTime) (valid : List SubUnit) : Evidence :=
  match (s.outlet o).subs.gap with
  | some g =>
    if valid = [] then s.evidence else s.evidence.create (gapDraft o c (s.outlet o).subs.limit g .unit a)
  | none => s.evidence

/-- A segment's subtitle record after the units of a frame, of which some are valid and others in a wrong language. -/
def SubRecord.afterUnits (k : SubRecord) (gap : Option OpenGap) (valid : List SubUnit) (wrong : Nat) : SubRecord :=
  { k with
    wrongLanguage := if wrong = 0 then k.wrongLanguage else min 4294967295 (k.wrongLanguage + wrong)
    longestGap :=
      match gap with
      | some g => if valid = [] then k.longestGap else max k.longestGap g.length
      | none => k.longestGap }

/-- What the units of a frame do to an outlet's Subtitle Checker and to the evidence (R77 to R83, R87). -/
structure UnitsTaken (o : OutletId) (c : Current) (a : AirTime) (valid : List SubUnit) (wrong : Nat) (s t : State) : Prop where
  checks : Checks o s t
  showing : (t.outlet o).subs.showing = valid.foldl SubUnit.display (s.outlet o).subs.showing
  limit : (t.outlet o).subs.limit = (s.outlet o).subs.limit
  record : (t.outlet o).subs.record = (s.outlet o).subs.record.map fun k => k.afterUnits (s.outlet o).subs.gap valid wrong
  gap : (t.outlet o).subs.gap = if valid = [] then (s.outlet o).subs.gap else none
  timer : (t.outlet o).subs.timer =
    if valid = [] then (s.outlet o).subs.timer else reloaded (s.outlet o).subs.timer (s.outlet o).subs.limit
  evidence : t.evidence = unitEvidence s o c a valid

theorem reloaded_reloaded (t : GapTimer) (l : Option Nat) : reloaded (reloaded t l) l = reloaded t l := by
  cases t <;> cases l <;> rfl

section
variable {o : OutletId} {c : Current} {a : AirTime}

theorem SubRecord.afterUnits_nil (k : SubRecord) (gap : Option OpenGap) : k.afterUnits gap [] 0 = k := by
  unfold SubRecord.afterUnits
  cases gap <;> rfl

theorem UnitsTaken.nil (s : State) : UnitsTaken o c a [] 0 s s := by
  refine ⟨.refl s, rfl, rfl, ?_, rfl, rfl, ?_⟩
  · simp [SubRecord.afterUnits_nil]
  · unfold unitEvidence
    split <;> rfl

/-- A unit in a wrong language and the units after it. -/
theorem UnitsTaken.wrong {s t : State} {valid : List SubUnit} {wrong : Nat}
    (h : UnitsTaken o c a valid wrong (s.modSubs o Subs.afterWrong) t) : UnitsTaken o c a valid (wrong + 1) s t := by
  obtain ⟨checks, showing, limit, record, gap, timer, evidence⟩ := h
  simp only [State.modSubs_subs, Subs.afterWrong, Subs.modRecord, Option.map_map] at showing limit record gap timer
  refine ⟨(Checks.modSubs s _).trans checks, showing, limit, record.trans ?_, gap, timer, evidence.trans ?_⟩
  · refine congrArg (fun f => Option.map f (s.outlet o).subs.record) (funext fun k => ?_)
    simp only [Function.comp_apply, SubRecord.afterUnits, satAdd, max32, SubRecord.mk.injEq, true_and, Nat.add_one_ne_zero, if_false]
    refine ⟨?_, trivial⟩
    split <;> omega
  · unfold unitEvidence
    simp only [State.modSubs_subs, Subs.afterWrong, Subs.modRecord]
    rfl

/-- A valid unit and the units after it: it closes the gap, so they find none. -/
theorem UnitsTaken.valid {s m t : State} {u : SubUnit} {valid : List SubUnit} {wrong : Nat} (current : s.current o = some c)
    (checks : Checks o s m) (subs : (m.outlet o).subs = (s.outlet o).subs.afterValid u)
    (evidence : m.evidence = (s.closeGap o .unit a).evidence) (h : UnitsTaken o c a valid wrong m t) :
    UnitsTaken o c a (u :: valid) wrong s t := by
  obtain ⟨gap, -, limit, -⟩ := (s.outlet o).subs.closed_rest
  have noGap : (m.outlet o).subs.gap = none := by rw [subs]; exact gap
  have sameLimit : (m.outlet o).subs.limit = (s.outlet o).subs.limit := by rw [subs]; exact limit
  have newTimer : (m.outlet o).subs.timer = reloaded (s.outlet o).subs.timer (s.outlet o).subs.limit := by rw [subs]; rfl
  refine ⟨checks.trans h.checks, ?_, h.limit.trans sameLimit, ?_, ?_, ?_, ?_⟩
  · rw [h.showing, subs]
    rfl
  · rw [h.record, noGap, subs]
    show Option.map _ (s.outlet o).subs.closed.record = _
    cases was : (s.outlet o).subs.gap with
    | none =>
      rw [Subs.closed_of_none was]
      rfl
    | some g =>
      rw [Subs.closed_of_open was]
      simp only [Subs.modRecord, Option.map_map]
      rfl
  · rw [h.gap, noGap]
    simp
  · rw [h.timer, newTimer, sameLimit, reloaded_reloaded]
    simp
  · rw [h.evidence]
    unfold unitEvidence
    rw [noGap]
    cases was : (s.outlet o).subs.gap with
    | none =>
      rw [State.closeGap_of_none was] at evidence
      exact evidence
    | some g =>
      rw [(State.closeGap_of_open current was .unit a).2] at evidence
      simpa using evidence

/-- The units of a frame, one after another. -/
theorem unitsTaken (units : List SubUnit) {s : State} (current : s.current o = some c) :
    UnitsTaken o c a
      (units.filter fun u => u.relevant (s.outletSettings o).subtitleService && u.spoken c.decl.language)
      (units.countP fun u => u.relevant (s.outletSettings o).subtitleService && !u.spoken c.decl.language)
      s (units.foldl (State.takeSubUnit o c a) s) := by
  induction units generalizing s with
  | nil => exact .nil s
  | cons u us ih =>
    have checks := Checks.takeSubUnit s o c a u
    have rest := ih (s := s.takeSubUnit o c a u) (checks.current.trans current)
    have settings : (s.takeSubUnit o c a u).outletSettings o = s.outletSettings o := by
      unfold State.outletSettings
      rw [checks.settings]
    rw [settings] at rest
    rw [List.foldl_cons]
    cases relevant : u.relevant (s.outletSettings o).subtitleService with
    | false =>
      rw [State.takeSubUnit_of_irrelevant relevant] at rest ⊢
      simpa [relevant] using rest
    | true =>
      cases spoken : u.spoken c.decl.language with
      | true =>
        obtain ⟨subs, evidence⟩ := State.takeSubUnit_of_valid (a := a) relevant spoken current
        simpa [relevant, spoken] using rest.valid current checks subs evidence
      | false =>
        rw [State.takeSubUnit_of_wrong relevant spoken] at rest ⊢
        simpa [relevant, spoken] using rest.wrong

end

/-! ### The gap timer (R84, R85) -/

theorem Checks.passGap (s : State) (o : OutletId) (start : AirTime) (rfn : Option Rfn) : Checks o s (s.passGap o start rfn) := by
  unfold State.passGap
  split
  · exact .modSubs s _
  · unfold State.runTimer
    split
    · split
      · exact (Checks.modSubs s _).trans (.reportGap _ _)
      · exact .modSubs s _
    · exact .refl s
    · exact .refl s

theorem State.passGap_evidence (s : State) (o : OutletId) (start : AirTime) (rfn : Option Rfn) :
    (s.passGap o start rfn).evidence = s.evidence := by
  unfold State.passGap
  split
  · rfl
  · unfold State.runTimer
    split
    · split
      · rw [State.openGap, State.reportGap_evidence]
        rfl
      · rfl
    · rfl
    · rfl

/-- A Subtitle Checker after a frame or LOST tick at its gap timer (R84 to R86). -/
def Subs.passed (b : Subs) (start : AirTime) (rfn : Option Rfn) : Subs :=
  match b.gap with
  | some g => { b with gap := some { g with length := satAdd max32 g.length 1 } }
  | none =>
    match b.timer with
    | .running n =>
      if n ≤ 1 then
        { b.modRecord fun r => { r with gapCount := satAdd max32 r.gapCount 1 } with
          timer := .expired, gap := some { start := start, rfn := rfn, length := 1 } }
      else { b with timer := .running (n - 1) }
    | .stopped => b
    | .expired => b

theorem State.passGap_subs (s : State) (o : OutletId) (start : AirTime) (rfn : Option Rfn) :
    ((s.passGap o start rfn).outlet o).subs = (s.outlet o).subs.passed start rfn := by
  unfold State.passGap Subs.passed
  cases gap : (s.outlet o).subs.gap with
  | some g => exact State.modSubs_subs ..
  | none =>
    unfold State.runTimer
    cases (s.outlet o).subs.timer with
    | running n =>
      dsimp only
      split
      · rw [State.openGap, State.reportGap_subs, State.modSubs_subs]
      · rw [State.modSubs_subs, gap]
    | stopped => rfl
    | expired => rfl

/-- The gap timer looks at the gap and the timer alone, and changes of the record only its gap count. -/
theorem Subs.passed_spec (b : Subs) (start : AirTime) (rfn : Option Rfn) :
    (b.passed start rfn).showing = b.showing ∧ (b.passed start rfn).limit = b.limit ∧
      ∃ f : Nat → Nat, (b.passed start rfn).record = b.record.map fun r => { r with gapCount := f r.gapCount } := by
  unfold Subs.passed
  have same : b.record = b.record.map fun r => { r with gapCount := id r.gapCount } := by simp
  split
  · exact ⟨rfl, rfl, id, same⟩
  · split
    · split
      · exact ⟨rfl, rfl, fun n => satAdd max32 n 1, rfl⟩
      · exact ⟨rfl, rfl, id, same⟩
    · exact ⟨rfl, rfl, id, same⟩
    · exact ⟨rfl, rfl, id, same⟩

theorem Subs.passed_congr {b d : Subs} (gap : d.gap = b.gap) (timer : d.timer = b.timer) (start : AirTime) (rfn : Option Rfn) :
    (d.passed start rfn).gap = (b.passed start rfn).gap ∧ (d.passed start rfn).timer = (b.passed start rfn).timer := by
  unfold Subs.passed
  rw [gap, timer]
  split
  · exact ⟨rfl, rfl⟩
  · split
    · split <;> exact ⟨rfl, rfl⟩
    · exact ⟨gap, timer⟩
    · exact ⟨gap, timer⟩

/-! ### A frame at the Subtitle Checker (R79) -/

/-- A segment's record with a frame seen (R81). -/
def Subs.seen (b : Subs) : Subs := b.modRecord fun r => { r with framesSeen := satAdd max24 r.framesSeen 1 }

/-- A segment's record with a frame covered where the screen shows (R81). -/
def Subs.covering (b : Subs) : Subs := if b.showing then b.modRecord fun r => { r with covered := satAdd max24 r.covered 1 } else b

theorem State.checkSubtitles_eq {s : State} {o : OutletId} {c : Current} (current : s.current o = some c) (a : AirTime) (n : Rfn)
    (units : List SubUnit) :
    s.checkSubtitles o a n units =
      ((units.foldl (State.takeSubUnit o c a) (s.modSubs o Subs.seen)).modSubs o Subs.covering).passGap o a (some n) := by
  unfold State.checkSubtitles
  rw [current]
  rfl

theorem Subs.covering_spec (b : Subs) : b.covering.showing = b.showing ∧ b.covering.limit = b.limit ∧ b.covering.gap = b.gap ∧
    b.covering.timer = b.timer ∧ b.covering.record =
      b.record.map fun r => { r with covered := if b.showing then min 16777215 (r.covered + 1) else r.covered } := by
  unfold Subs.covering
  split
  · exact ⟨rfl, rfl, rfl, rfl, rfl⟩
  · exact ⟨rfl, rfl, rfl, rfl, by simp⟩

/-- What the Subtitle Checker's work on a frame makes of an outlet's Subtitle Checker (R79). -/
structure FrameChecked (o : OutletId) (c : Current) (a : AirTime) (n : Rfn) (valid : List SubUnit) (wrong : Nat) (s t : State) :
    Prop where
  checks : Checks o s t
  showing : (t.outlet o).subs.showing = valid.foldl SubUnit.display (s.outlet o).subs.showing
  limit : (t.outlet o).subs.limit = (s.outlet o).subs.limit
  record : ∀ k : SubRecord, (s.outlet o).subs.record = some k → ∃ g : Nat, (t.outlet o).subs.record = some
    { k.afterUnits (s.outlet o).subs.gap valid wrong with
      framesSeen := min 16777215 (k.framesSeen + 1)
      covered := if valid.foldl SubUnit.display (s.outlet o).subs.showing then min 16777215 (k.covered + 1) else k.covered
      gapCount := g }
  timer : ∃ b : Subs, (b.gap = if valid = [] then (s.outlet o).subs.gap else none) ∧
    (b.timer = if valid = [] then (s.outlet o).subs.timer else reloaded (s.outlet o).subs.timer (s.outlet o).subs.limit) ∧
    (t.outlet o).subs.gap = (b.passed a (some n)).gap ∧ (t.outlet o).subs.timer = (b.passed a (some n)).timer
  evidence : t.evidence = unitEvidence s o c a valid

theorem State.checkSubtitles_spec {s : State} {o : OutletId} {c : Current} (current : s.current o = some c) (a : AirTime) (n : Rfn)
    (units : List SubUnit) :
    FrameChecked o c a n
      (units.filter fun u => u.relevant (s.outletSettings o).subtitleService && u.spoken c.decl.language)
      (units.countP fun u => u.relevant (s.outletSettings o).subtitleService && !u.spoken c.decl.language)
      s (s.checkSubtitles o a n units) := by
  have seen : (s.modSubs o Subs.seen).current o = some c := ((Checks.modSubs s _).current).trans current
  have taken := unitsTaken (a := a) units seen
  rw [State.checkSubtitles_eq current]
  generalize units.foldl (State.takeSubUnit o c a) (s.modSubs o Subs.seen) = v at taken
  obtain ⟨checks, showing, limit, record, gap, timer, evidence⟩ := taken
  simp only [State.modSubs_subs] at showing limit record gap timer
  obtain ⟨covShowing, covLimit, covGap, covTimer, covRecord⟩ := (v.outlet o).subs.covering_spec
  have finalSubs : (((v.modSubs o Subs.covering).passGap o a (some n)).outlet o).subs =
      (v.outlet o).subs.covering.passed a (some n) := by rw [State.passGap_subs, State.modSubs_subs]
  obtain ⟨passShowing, passLimit, f, passRecord⟩ := (v.outlet o).subs.covering.passed_spec a (some n)
  refine ⟨?_, ?_, ?_, fun k was => ?_, ⟨(v.outlet o).subs.covering, ?_, ?_, ?_, ?_⟩, ?_⟩
  · exact (((Checks.modSubs s _).trans checks).trans (.modSubs _ _)).trans (.passGap _ _ _ _)
  · rw [finalSubs, passShowing, covShowing, showing]
    rfl
  · rw [finalSubs, passLimit, covLimit, limit]
    rfl
  · rw [finalSubs, passRecord, covRecord, record, showing]
    simp only [Subs.seen, Subs.modRecord, was, Option.map_some]
    exact ⟨_, rfl⟩
  · rw [covGap, gap]
    rfl
  · rw [covTimer, timer]
    rfl
  · rw [finalSubs]
  · rw [finalSubs]
  · rw [State.passGap_evidence]
    refine evidence.trans ?_
    unfold unitEvidence
    simp only [State.modSubs_subs]
    rfl

/-- Settles O31: the units change the record, the gap and the timer, and the frame is then counted and passed to the timer. -/
theorem subtitleFrameChecked : Obligations.SubtitleFrameChecked := by
  intro s o c a n units current relevant spoken valid wrong b u t showing
  obtain ⟨checks, shows, limit, record, ⟨d, gap, timer, finalGap, finalTimer⟩, evidence⟩ := State.checkSubtitles_spec current a n units
  change d.gap = if valid = [] then b.gap else none at gap
  change d.timer = if valid = [] then b.timer else reloaded b.timer b.limit at timer
  have noUnit : valid = [] → d.gap = b.gap ∧ d.timer = b.timer := fun none => by
    rw [if_pos none] at gap timer
    exact ⟨gap, timer⟩
  refine ⟨shows, limit, fun k was => ?_, fun none => ?_, fun some stopped => ?_, fun g some runs limited least => ?_, ?_,
    checks.others, checks.outlet, checks.frame⟩
  · obtain ⟨g, after⟩ := record k was
    exact ⟨_, after, rfl, rfl, rfl, rfl⟩
  · obtain ⟨sameGap, sameTimer⟩ := noUnit none
    have same := Subs.passed_congr sameGap sameTimer a (Option.some n)
    rw [State.passGap_subs]
    exact ⟨finalTimer.trans same.2, finalGap.trans same.1⟩
  · rw [if_neg some] at gap timer
    have stays : d.timer = .stopped := by rw [timer]; exact congrArg (fun t => reloaded t b.limit) stopped
    refine finalTimer.trans ?_
    rw [Subs.passed, gap, stays]
    exact stays
  · rw [if_neg some] at gap timer
    have loaded : d.timer = .running g := by
      rw [timer]
      show reloaded b.timer b.limit = _
      rw [limited]
      cases was : b.timer with
      | stopped => exact absurd was runs
      | running v => rfl
      | expired => rfl
    have passes : d.passed a (Option.some n) = { d with timer := .running (g - 1) } := by
      rw [Subs.passed, gap, loaded]
      exact if_neg (by omega)
    refine ⟨finalTimer.trans ?_, finalGap.trans ?_⟩
    · rw [passes]
    · rw [passes]
      exact gap
  · refine evidence.trans ?_
    rfl

end Sys2Proof.Machine
end

section
/-! The loudness that is counted of a segment, in step with its samples (R59, R63, R65, R66), and the laws of the measurement. -/

namespace Sys2Proof.Machine

/-! ### Loudness records (R64, R66, R67) -/

theorem List.sum_modify_bump {bins : List Nat} {i : Nat} (h : i < bins.length) (small : bins.sum < 4294967295) :
    (bins.modify i bump).sum = bins.sum + 1 := by
  induction bins generalizing i with
  | nil => exact absurd h (Nat.not_lt_zero _)
  | cons b bs ih =>
    rw [List.sum_cons] at small
    cases i with
    | zero =>
      have counted : bump b = b + 1 := Nat.min_eq_right (by simp only [max32]; omega)
      rw [List.modify_zero_cons, List.sum_cons, List.sum_cons, counted]
      omega
    | succ i =>
      have rest := ih (i := i) (by simpa using h) (by omega)
      rw [List.modify_succ_cons, List.sum_cons, List.sum_cons, rest]
      omega

/-- A gating block is one more in the histogram or under range (R66). -/
theorem LoudRecord.enter_spec (r : LoudRecord) (l : Int) (size : r.bins.length = 820) :
    (r.enter l).bins.length = 820 ∧
      (r.bins.sum + r.underRange < 4294967295 → (r.enter l).bins.sum + (r.enter l).underRange = r.bins.sum + r.underRange + 1) ∧
      (r.enter l).gatingCount = bump r.gatingCount := by
  unfold LoudRecord.enter
  split
  · refine ⟨size, fun small => ?_, rfl⟩
    have counted : bump r.underRange = r.underRange + 1 := Nat.min_eq_right (by simp only [max32]; omega)
    show r.bins.sum + bump r.underRange = _
    omega
  · refine ⟨by rw [List.length_modify, size], fun small => ?_, rfl⟩
    have inside : binOf l < r.bins.length := by
      rw [size]
      exact Nat.lt_of_le_of_lt (Nat.min_le_left _ _) (by decide)
    have counted := List.sum_modify_bump inside (by omega)
    show (r.bins.modify (binOf l) bump).sum + r.underRange = _
    omega

/-- What is counted of a segment after a number of its samples, of which some are gathered for the next sub-block (R59, R65, R66). -/
structure SegLoud.Counts (g : SegLoud) (gathered samples : Nat) : Prop where
  bins : g.record.bins.length = 820
  window : g.window.length = min 4 g.full
  counted : samples < 1920 * 16777215 → 4800 * g.full + gathered = samples ∧
    g.record.bins.sum + g.record.underRange = g.full - 3 ∧ g.record.gatingCount = g.full - 3

theorem lastItems_length {α : Type} (n : Nat) (xs : List α) : (lastItems n xs).length = min n xs.length := by
  rw [lastItems, List.length_drop]
  omega

/-- The record of a segment's sub-block: only the short-term maximum can have changed (R64). -/
theorem SegLoud.count_record (g : SegLoud) (p : Rat) (v : Int) :
    (g.count p v).record.bins = g.record.bins ∧ (g.count p v).record.underRange = g.record.underRange ∧
      (g.count p v).record.gatingCount = g.record.gatingCount := by
  unfold SegLoud.count LoudRecord.enterShortTerm
  dsimp only
  split <;> exact ⟨rfl, rfl, rfl⟩

theorem SegLoud.count_window (g : SegLoud) (p : Rat) (v : Int) (h : g.window.length = min 4 g.full) :
    (g.count p v).window.length = min 4 (g.count p v).full := by
  show (lastItems 4 (g.window ++ [p])).length = min 4 (bump g.full)
  rw [lastItems_length, List.length_append, h, List.length_singleton, bump, satAdd, max32]
  omega

/-- A full sub-block of 4800 samples, before the fourth (R65). -/
theorem SegLoud.Counts.early {g : SegLoud} {samples : Nat} (h : g.Counts 4800 samples) (p : Rat) (v : Int)
    (early : (g.count p v).full < 4) : (g.count p v).Counts 0 samples := by
  obtain ⟨bins, under, gating⟩ := g.count_record p v
  refine ⟨by rw [bins]; exact h.bins, g.count_window p v h.window, fun small => ?_⟩
  obtain ⟨samplesOf, blocks, count⟩ := h.counted small
  have full : (g.count p v).full = g.full + 1 := Nat.min_eq_right (by simp only [max32]; omega)
  rw [full] at early
  rw [full, bins, under, gating, blocks, count]
  omega

/-- A full sub-block of 4800 samples, with the gating block that it completes (R65, R66). -/
theorem SegLoud.Counts.late {g : SegLoud} {samples : Nat} (h : g.Counts 4800 samples) (p : Rat) (v l : Int)
    (late : 4 ≤ (g.count p v).full) : ((g.count p v).modRecord fun r => r.enter l).Counts 0 samples := by
  obtain ⟨bins, under, gating⟩ := g.count_record p v
  obtain ⟨size, entered, counted⟩ := (g.count p v).record.enter_spec l (by rw [bins]; exact h.bins)
  refine ⟨size, g.count_window p v h.window, fun small => ?_⟩
  obtain ⟨samplesOf, blocks, count⟩ := h.counted small
  have full : (g.count p v).full = g.full + 1 := Nat.min_eq_right (by simp only [max32]; omega)
  rw [full] at late
  rw [bins, under] at entered
  have total := entered (by omega)
  have bumped : bump (g.count p v).record.gatingCount = g.record.gatingCount + 1 := by
    rw [gating]
    exact Nat.min_eq_right (by simp only [max32]; omega)
  show 4800 * (g.count p v).full + 0 = samples ∧ ((g.count p v).record.enter l).bins.sum +
    ((g.count p v).record.enter l).underRange = (g.count p v).full - 3 ∧ ((g.count p v).record.enter l).gatingCount =
      (g.count p v).full - 3
  rw [full, total, counted, bumped]
  omega

theorem SegLoud.Counts.gather {g : SegLoud} {gathered samples : Nat} (h : g.Counts gathered samples) (n : Nat) :
    g.Counts (gathered + n) (samples + n) := by
  refine ⟨h.bins, h.window, fun small => ?_⟩
  obtain ⟨samplesOf, rest⟩ := h.counted (by omega)
  exact ⟨by omega, rest⟩

/-! ### The Loudness Engine (R59, R63, R69 to R71) -/

/-- An engine whose history fits and whose segment is counted in step with its samples. -/
structure Loud.Counts (e : Loud) (samples : Nat) : Prop where
  history : e.history.length ≤ 30
  seg : ∃ g : SegLoud, e.seg = some g ∧ g.Counts e.gathered samples

/-- An engine changed in nothing that is counted: the taps, the true peak, the open break. -/
structure Loud.Alike (e f : Loud) : Prop where
  gathered : f.gathered = e.gathered
  history : f.history = e.history
  seg : ∀ g : SegLoud, e.seg = some g → ∃ x : Int, f.seg = some { g with record := { g.record with truePeak := x } }

theorem Loud.Alike.refl (e : Loud) : e.Alike e := ⟨rfl, rfl, fun g h => ⟨g.record.truePeak, h⟩⟩

theorem Loud.Alike.trans {e f g : Loud} (h : e.Alike f) (k : f.Alike g) : e.Alike g := by
  refine ⟨k.gathered.trans h.gathered, k.history.trans h.history, fun x hx => ?_⟩
  obtain ⟨y, hy⟩ := h.seg x hx
  obtain ⟨z, hz⟩ := k.seg _ hy
  exact ⟨z, hz⟩

theorem Loud.Alike.of_seg {e f : Loud} (gathered : f.gathered = e.gathered) (history : f.history = e.history) (seg : f.seg = e.seg) :
    e.Alike f :=
  ⟨gathered, history, fun g h => ⟨g.record.truePeak, by rw [seg, h]⟩⟩

theorem Loud.Counts.alike {e f : Loud} {samples : Nat} (h : e.Counts samples) (k : e.Alike f) : f.Counts samples := by
  obtain ⟨g, seg, counts⟩ := h.seg
  obtain ⟨x, same⟩ := k.seg g seg
  refine ⟨by rw [k.history]; exact h.history, _, same, ?_⟩
  rw [k.gathered]
  exact ⟨counts.bins, counts.window, counts.counted⟩

theorem Loud.gatherAll_spec (e : Loud) (xs : List (Six Int)) :
    (e.gatherAll xs).gathered = e.gathered + xs.length ∧ (e.gatherAll xs).history = e.history ∧ (e.gatherAll xs).seg = e.seg := by
  induction xs generalizing e with
  | nil => exact ⟨rfl, rfl, rfl⟩
  | cons x xs ih =>
    obtain ⟨gathered, history, seg⟩ := ih (e.gather x)
    refine ⟨?_, history, seg⟩
    show ((e.gather x).gatherAll xs).gathered = _
    rw [gathered, List.length_cons]
    show e.gathered + 1 + xs.length = _
    omega

theorem Loud.Counts.gatherAll {e : Loud} {samples : Nat} (h : e.Counts samples) (xs : List (Six Int)) :
    (e.gatherAll xs).Counts (samples + xs.length) := by
  obtain ⟨gathered, history, seg⟩ := e.gatherAll_spec xs
  obtain ⟨g, was, counts⟩ := h.seg
  refine ⟨by rw [history]; exact h.history, g, seg.trans was, ?_⟩
  rw [gathered]
  exact counts.gather _

theorem Loud.tapAll_alike (e : Loud) (xs : List (Six Int)) : e.Alike (e.tapAll xs).1 := by
  have key : ∀ (xs : List (Six Int)) (p : Loud × Nat), p.1.Alike
      (xs.foldl (fun p x => (p.1.tap x, if 4 ≤ p.1.incomplete then max p.2 (p.1.tap x).indexPeak else p.2)) p).1 := by
    intro xs
    induction xs with
    | nil => exact fun p => .refl _
    | cons x xs ih =>
      intro p
      have tapped : p.1.Alike (p.1.tap x) := .of_seg rfl rfl rfl
      exact tapped.trans (ih (p.1.tap x, if 4 ≤ p.1.incomplete then max p.2 (p.1.tap x).indexPeak else p.2))
  exact key xs (e, 0)

@[simp] theorem State.modLoud_loud (s : State) (o : OutletId) (f : Loud → Loud) :
    ((s.modLoud o f).outlet o).loud = f (s.outlet o).loud := by
  rw [State.modLoud, State.outlet_modOutlet_same]

theorem State.reportShortTerm_loud (s : State) (o : OutletId) (v : Int) (n : Nat) :
    ((s.reportShortTerm o v n).outlet o).loud = (s.outlet o).loud :=
  (Spreads.setBreach (R := fun _ x => x = .verdict) s rfl _).loud nofun

theorem State.countExcursion_loud (s : State) (o : OutletId) (l : Int) (stamp : AirTime) :
    ((s.countExcursion o l stamp).outlet o).loud = (s.outlet o).loud :=
  (Spreads.countExcursion (R := fun _ x => x = .verdict) s rfl l stamp).loud nofun

theorem State.completeSubBlock_loud (s : State) (o : OutletId) :
    ((s.completeSubBlock o).outlet o).loud = (s.outlet o).loud.complete s.free := by
  rw [State.completeSubBlock, State.useFree_outlet, State.modLoud_loud]

theorem Loud.complete_spec (e : Loud) (n : Nat) :
    (e.complete n).history.length ≤ 30 ∧ (e.complete n).gathered = 0 ∧ (e.complete n).seg = e.seg := by
  refine ⟨?_, rfl, rfl⟩
  show (lastItems 30 _).length ≤ 30
  rw [lastItems_length]
  exact Nat.min_le_left _ _

/-- A full sub-block empties the accumulator and is counted in the segment (R65, R71). -/
theorem State.fullSubBlock_counts {s : State} {o : OutletId} {samples : Nat} (h : (s.outlet o).loud.Counts samples)
    (whole : (s.outlet o).loud.gathered = 4800) (stamp : AirTime) :
    ((s.fullSubBlock o stamp).outlet o).loud.Counts samples ∧ ((s.fullSubBlock o stamp).outlet o).loud.gathered = 0 := by
  obtain ⟨g, seg, counts⟩ := h.seg
  rw [whole] at counts
  obtain ⟨history, gathered, same⟩ := (s.outlet o).loud.complete_spec s.free
  have joined := s.completeSubBlock_loud o
  unfold State.fullSubBlock
  generalize s.completeSubBlock o = u at joined
  dsimp only
  rw [joined, same, seg]
  dsimp only
  split
  · rename_i early
    rw [State.reportShortTerm_loud, State.modLoud_loud, joined]
    refine ⟨⟨history, _, rfl, ?_⟩, gathered⟩
    rw [show ({ (s.outlet o).loud.complete s.free with seg := _ } : Loud).gathered = 0 from gathered]
    exact counts.early _ _ early
  · rename_i late
    rw [State.gatingBlock, State.countExcursion_loud, State.modLoud_loud, State.useFree_outlet, State.reportShortTerm_loud,
      State.modLoud_loud, joined]
    refine ⟨⟨history, _, rfl, ?_⟩, gathered⟩
    rw [show ({ (s.outlet o).loud.complete s.free with seg := _, brk := _ } : Loud).gathered = 0 from gathered]
    exact counts.late _ _ _ (Nat.le_of_not_lt late)

/-- A frame's 1920 samples are gathered, and complete at most one sub-block (R59). -/
theorem State.gatherFrame_counts {s : State} {o : OutletId} {samples : Nat} (h : (s.outlet o).loud.Counts samples)
    (below : (s.outlet o).loud.gathered < 4800) (stamp : AirTime) {xs : List (Six Int)} (frame : xs.length = 1920) :
    ((s.gatherFrame o stamp xs).outlet o).loud.Counts (samples + 1920) ∧
      ((s.gatherFrame o stamp xs).outlet o).loud.gathered < 4800 := by
  unfold State.gatherFrame
  dsimp only
  have size : subBlockSize = 4800 := rfl
  split
  · rename_i fits
    have all : xs.take (subBlockSize - (s.outlet o).loud.gathered) = xs := List.take_of_length_le (Nat.le_of_lt fits)
    rw [all, State.modLoud_loud]
    refine ⟨frame ▸ h.gatherAll xs, ?_⟩
    rw [((s.outlet o).loud.gatherAll_spec xs).1]
    omega
  · rename_i passes
    have taken : (xs.take (subBlockSize - (s.outlet o).loud.gathered)).length = 4800 - (s.outlet o).loud.gathered := by
      rw [List.length_take]
      omega
    have first := h.gatherAll (xs.take (subBlockSize - (s.outlet o).loud.gathered))
    have whole := ((s.outlet o).loud.gatherAll_spec (xs.take (subBlockSize - (s.outlet o).loud.gathered))).1
    rw [taken] at first whole
    have gathered : ((s.modLoud o fun e => e.gatherAll (xs.take (subBlockSize - (s.outlet o).loud.gathered))).outlet o).loud =
        (s.outlet o).loud.gatherAll (xs.take (subBlockSize - (s.outlet o).loud.gathered)) := State.modLoud_loud ..
    rw [← gathered] at first whole
    obtain ⟨counts, empty⟩ := State.fullSubBlock_counts first (by omega) stamp
    have left : (xs.drop (subBlockSize - (s.outlet o).loud.gathered)).length = 1920 - (4800 - (s.outlet o).loud.gathered) := by
      rw [List.length_drop, frame, size]
    have last := counts.gatherAll (xs.drop (subBlockSize - (s.outlet o).loud.gathered))
    rw [State.modLoud_loud]
    rw [left] at last
    refine ⟨?_, ?_⟩
    · have total : samples + (4800 - (s.outlet o).loud.gathered) + (1920 - (4800 - (s.outlet o).loud.gathered)) = samples + 1920 := by
        omega
      rwa [total] at last
    · rw [(Loud.gatherAll_spec _ _).1, empty, left]
      omega

/-- The work on the true peaks, before a frame's samples are gathered, changes nothing that is counted (R70). -/
theorem State.enterPeak_alike (s : State) (o : OutletId) (code : Int) :
    (s.outlet o).loud.Alike ((s.enterPeak o code).outlet o).loud := by
  rw [State.enterPeak, State.modLoud_loud]
  exact ⟨rfl, rfl, fun g h => ⟨max g.record.truePeak code, by simp [h, SegLoud.modRecord, LoudRecord.enterPeak]⟩⟩

theorem State.tapSamples_alike (s : State) (o : OutletId) (xs : List (Six Int)) :
    (s.outlet o).loud.Alike ((s.tapSamples o xs).1.outlet o).loud := by
  rw [State.tapSamples, State.useFree_outlet, State.modLoud_loud]
  exact Loud.tapAll_alike _ _

theorem State.sendFinal_alike (s : State) (o : OutletId) (code : Int) :
    (s.outlet o).loud.Alike ((s.sendFinal o code).outlet o).loud := by
  unfold State.sendFinal
  split
  · exact .refl _
  · split
    · exact .refl _
    · rw [State.outlet_modOutlet_same]
      unfold Outlet.enterFinal
      dsimp only
      split
      · exact .refl _
      · split
        · exact .refl _
        · exact .of_seg rfl rfl rfl

/-- The Loudness Engine's work on a frame counts its samples (R59, R71). -/
theorem State.measure_counts {s : State} {o : OutletId} {samples : Nat} (h : (s.outlet o).loud.Counts samples)
    (below : (s.outlet o).loud.gathered < 4800) (stamp : AirTime) {xs : List (Six Int)} (frame : xs.length = 1920) :
    ((s.measure o stamp xs).outlet o).loud.Counts (samples + 1920) ∧ ((s.measure o stamp xs).outlet o).loud.gathered < 4800 := by
  have closes : ∀ ys : List (Six Int), (s.outlet o).loud.Alike
      ((((s.tapSamples o ys).1.sendFinal o (s.tapSamples o ys).2).formVerdicts [o]).outlet o).loud := fun ys => by
    rw [(Spreads.formVerdicts (R := fun _ x => x = .verdict) _ [o] fun _ _ => rfl).loud nofun]
    exact (s.tapSamples_alike o ys).trans (State.sendFinal_alike _ _ _)
  have enters : ∀ (u : State) (ys : List (Six Int)), (s.outlet o).loud.Alike (u.outlet o).loud →
      (s.outlet o).loud.Alike (((u.tapSamples o ys).1.enterPeak o (u.tapSamples o ys).2).outlet o).loud := fun u ys alike =>
    (alike.trans (u.tapSamples_alike o ys)).trans (State.enterPeak_alike _ _ _)
  unfold State.measure
  dsimp only
  have alike := enters (if s.awaitsFinal o then ((s.tapSamples o (xs.take 4)).1.sendFinal o
      (s.tapSamples o (xs.take 4)).2).formVerdicts [o] else s) (if s.awaitsFinal o then xs.drop 4 else xs) (by
    split
    · exact closes _
    · exact .refl _)
  exact State.gatherFrame_counts (h.alike alike) (by rw [alike.gathered]; exact below) stamp frame

/-- The audio of a frame, treated, is 1920 indices (R6, R56). -/
theorem treat_audio_length (o : OutletId) (bytes : Bytes) : (treat o bytes).audio.length = 1920 := by
  have silent : ∀ f : Treated, f.layout = .none → f.audio.length = 1920 := fun f none => by
    rw [Treated.audio_of_none none, List.length_replicate]
  cases read : readFrame bytes with
  | none => exact silent _ (by rw [treat_of_none read]; rfl)
  | some f =>
    by_cases absent : f.layout = .none ∨ f.sampleCount = 0
    · exact silent _ (by rw [treat_of_some read]; exact if_pos (decide_eq_true absent))
    · have audible : (treat o bytes).layout = f.layout := by rw [treat_of_some read]; exact if_neg (by simpa using absent)
      have samples : (treat o bytes).samples = normalised f.layout f.samples := by
        have kept : (trustedFrame o f).layout = f.layout := if_neg (by simpa using absent)
        rw [treat_of_some read]
        refine (if_neg (by simpa using absent)).trans ?_
        exact congrArg (fun l => normalised l f.samples) kept
      rw [Treated.audio_of_layout (by rw [audible]; exact fun h => absent (.inl h)), List.length_map, samples, normalised,
        List.length_append, List.length_take, List.length_replicate, frameSamples]
      omega

end Sys2Proof.Machine
end

section
/-! The measurement stays in step with the frames (R59, R61, R63, R65, R66, R81, R85, R91). -/

namespace Sys2Proof.Machine

/-! ### What a segment's beginning and end make of the measurement (R44, R45, R72, R82, R89) -/

theorem State.announce_loud (s : State) (o : OutletId) (d : Declaration) (late : Bool) (stamp : AirTime) (rfn : Rfn) :
    ((s.announce o d late stamp rfn).outlet o).loud = { (s.outlet o).loud.clearGathered with seg := some emptySegLoud } := by
  have later : Spreads (fun _ x => x ≠ .loud) ((s.modSched o fun q => { q with current := some (s.newCurrent d late stamp rfn) }).modLoud
      o fun e => { e.clearGathered with seg := some emptySegLoud }) (s.announce o d late stamp rfn) := by
    unfold State.announce State.loadSubs State.loadExcursions State.clearShortTerm
    exact ((Spreads.modSubs _ nofun _).trans (.modVerdict _ nofun _)).trans (.setBreach _ nofun _)
  rw [later.loud (by simp), State.modLoud_loud, (Spreads.modSched (R := fun _ x => x = .sched) s rfl _).loud nofun]

theorem State.announce_subs (s : State) (o : OutletId) (d : Declaration) (late : Bool) (stamp : AirTime) (rfn : Rfn) :
    ∃ limit : Option Nat, ((s.announce o d late stamp rfn).outlet o).subs =
      { (s.outlet o).subs with timer := loadedTimer limit, limit := limit, record := some emptySubRecord } := by
  refine ⟨gapLimit (s.profileOf (s.newCurrent d late stamp rfn).version) (s.newCurrent d late stamp rfn).decl.obligation, ?_⟩
  unfold State.announce State.loadSubs State.loadExcursions State.clearShortTerm
  dsimp only
  rw [(Spreads.setBreach (R := fun _ x => x = .verdict) _ rfl _).subs nofun,
    (Spreads.modVerdict (R := fun _ x => x = .verdict) _ rfl _).subs nofun, State.modSubs_subs,
    (Spreads.modLoud (R := fun _ x => x = .loud) _ rfl _).subs nofun,
    (Spreads.modSched (R := fun _ x => x = .sched) s rfl _).subs nofun]
  rfl

theorem State.stepBreak_alike (s : State) (o : OutletId) (stamp : AirTime) :
    (s.outlet o).loud.Alike ((s.stepBreak o stamp).outlet o).loud := by
  unfold State.stepBreak
  split
  · exact .refl _
  · split
    · split
      · rw [State.modLoud_loud, (Spreads.modSched (R := fun _ x => x = .sched) s rfl _).loud nofun]
        exact .of_seg rfl rfl rfl
      · exact .refl _
    · split
      · rw [(Spreads.modSched (R := fun _ x => x = .sched) s rfl _).loud nofun]
        exact .refl _
      · unfold State.closeBreak
        split
        · exact .refl _
        · rw [State.outlet_modOutlet_same]
          exact .of_seg rfl rfl rfl

theorem State.begin_alike (s : State) (o : OutletId) (d : Declaration) (late : Bool) (a : Arrival) :
    Loud.Alike { (s.outlet o).loud.clearGathered with seg := some emptySegLoud } ((s.begin o d late a).outlet o).loud := by
  rw [State.begin, (Spreads.countFrame (R := fun _ x => x = .sched) _ rfl _).loud nofun, ← s.announce_loud o d late a.stamp a.rfn]
  exact State.stepBreak_alike _ _ _

theorem State.begin_subs (s : State) (o : OutletId) (d : Declaration) (late : Bool) (a : Arrival) :
    ∃ limit : Option Nat, ((s.begin o d late a).outlet o).subs =
      { (s.outlet o).subs with timer := loadedTimer limit, limit := limit, record := some emptySubRecord } := by
  rw [State.begin, (Spreads.countFrame (R := fun _ x => x = .sched) _ rfl _).subs nofun,
    (Spreads.stepBreak (R := fun _ x => x ≠ .subs) _ nofun nofun nofun _).subs (by simp)]
  exact s.announce_subs o d late a.stamp a.rfn

/-- The loudness history of a closed segment still fits (R61, R63). -/
theorem State.closeSegment_history {s : State} {o : OutletId} (h : (s.outlet o).loud.history.length ≤ 30) (close : CloseCause)
    (gap : GapCause) (stamp : AirTime) : ((s.closeSegment o close gap stamp).outlet o).loud.history.length ≤ 30 := by
  have short : ((s.shortSubBlock o).outlet o).loud.history.length ≤ 30 := by
    unfold State.shortSubBlock
    split
    · exact h
    · dsimp only
      rw [State.reportShortTerm_loud, State.completeSubBlock_loud]
      exact ((s.outlet o).loud.complete_spec s.free).1
  unfold State.closeSegment
  split
  · exact h
  · dsimp only
    rw [State.outlet_modOutlet_same]
    show ((State.closeGap _ o gap stamp).outlet o).loud.history.length ≤ 30
    rw [(Spreads.closeGap (R := fun _ x => x ≠ .loud) _ nofun nofun gap stamp).loud (by simp)]
    split
    · exact short
    · exact h

/-- A closed segment leaves no gap open (R87, R89). -/
theorem State.closeSegment_gap {s : State} {o : OutletId} {c : Current} (current : s.current o = some c) (close : CloseCause)
    (gap : GapCause) (stamp : AirTime) : ((s.closeSegment o close gap stamp).outlet o).subs.gap = none := by
  unfold State.closeSegment
  simp only [current]
  rw [State.outlet_modOutlet_same]
  have still : (if close = .next then s.shortSubBlock o else s).current o = some c := by
    split
    · rw [State.current, (Spreads.shortSubBlock (R := fun _ x => x ≠ .sched) s nofun nofun).sched (by simp)]
      exact current
    · exact current
  show ((State.closeGap _ o gap stamp).outlet o).subs.gap = none
  rw [State.closeGap_subs still]
  exact (Subs.closed_rest _).1

/-! ### The laws of one outlet -/

/-- The laws of the measurement, of one outlet. -/
def Outlet.Measured (t : Outlet) : Prop :=
  t.loud.history.length ≤ 30 ∧ t.loud.gathered < 4800 ∧ (t.subs.gap.isSome = true → t.subs.timer = .expired) ∧
    (t.sched.current = none → t.loud.gathered = 0 ∧ t.subs.timer = .stopped ∧ t.subs.gap = none ∧ t.subs.record = none) ∧
    ∀ c : Current, t.sched.current = some c →
      ∃ (g : SegLoud) (k : SubRecord), t.loud.seg = some g ∧ t.subs.record = some k ∧
        c.frameCount ≤ 16777215 ∧ k.framesSeen = c.frameCount ∧ k.covered ≤ k.framesSeen ∧ g.record.bins.length = 820 ∧
        g.window.length = min 4 g.full ∧
        (c.frameCount < 16777215 →
          4800 * g.full + t.loud.gathered = 1920 * c.frameCount ∧ g.record.bins.sum + g.record.underRange = g.full - 3 ∧
            g.record.gatingCount = g.full - 3)

theorem measurementLaws_iff (s : State) : MeasurementLaws s ↔ ∀ o : OutletId, (s.outlet o).Measured := Iff.rfl

/-- The loudness of a segment in step with a number of its frames (R59, R66). -/
structure Loud.UpTo (e : Loud) (n : Nat) : Prop where
  counts : e.Counts (1920 * n)
  below : e.gathered < 4800

/-- The subtitles of a segment in step with a number of its frames (R81, R85). -/
structure Subs.UpTo (b : Subs) (n : Nat) : Prop where
  gap : b.gap.isSome = true → b.timer = .expired
  record : ∃ k : SubRecord, b.record = some k ∧ k.framesSeen = n ∧ k.covered ≤ n

theorem Outlet.Measured.of_current {t : Outlet} {c : Current} (current : t.sched.current = some c) (few : c.frameCount ≤ 16777215)
    (loud : t.loud.UpTo c.frameCount) (subs : t.subs.UpTo c.frameCount) : t.Measured := by
  obtain ⟨⟨history, g, seg, bins, window, counted⟩, below⟩ := loud
  obtain ⟨gap, k, record, seen, covered⟩ := subs
  refine ⟨history, below, gap, fun none => ?_, fun d hd => ?_⟩
  · rw [current] at none
    cases none
  · cases current.symm.trans hd
    exact ⟨g, k, seg, record, few, seen, by rw [seen]; exact covered, bins, window, fun small => counted (by omega)⟩

theorem Outlet.Measured.upTo {t : Outlet} (h : t.Measured) {c : Current} (current : t.sched.current = some c) :
    c.frameCount ≤ 16777215 ∧ t.loud.UpTo c.frameCount ∧ t.subs.UpTo c.frameCount := by
  obtain ⟨history, below, gap, -, frames⟩ := h
  obtain ⟨g, k, seg, record, few, seen, covered, bins, window, counted⟩ := frames c current
  exact ⟨few, ⟨⟨history, g, seg, bins, window, fun small => counted (by omega)⟩, below⟩,
    ⟨gap, k, record, seen, by rw [← seen]; exact covered⟩⟩

theorem Outlet.Measured.unmoved {t u : Outlet} (h : t.Measured) (same : t.Unmoved u) : u.Measured := by
  obtain ⟨sched, loud, subs⟩ := same
  unfold Outlet.Measured
  rw [sched, loud, subs]
  exact h

theorem Outlet.Restored.measured {u : Outlet} (h : u.Restored) : u.Measured := by
  obtain ⟨sched, loud, subs⟩ := h
  unfold Outlet.Measured
  rw [sched, loud, subs]
  exact ⟨Nat.zero_le _, Nat.zero_lt_succ _, fun opened => (by cases opened), fun _ => ⟨rfl, rfl, rfl, rfl⟩, fun c hc => (by cases hc)⟩

/-- Between its frames an outlet's measurement stays in step. -/
theorem Outlet.Measured.proceeds {t u : Outlet} (h : t.Measured) (p : t.Proceeds u) : u.Measured := by
  have core := p.current
  cases was : t.sched.current with
  | none =>
    obtain ⟨history, below, gap, rest, -⟩ := h
    obtain ⟨empty, stopped, closed, record⟩ := rest was
    have still : u.sched.current = none := by simpa [was] using core
    obtain ⟨timer, noGap⟩ := p.subs.rest stopped closed
    have noRecord : u.subs.record = none := by simpa [record] using p.subs.seen
    refine ⟨by rw [p.loud]; exact history, by rw [p.loud]; exact below, p.subs.gap gap, fun _ => ⟨by rw [p.loud]; exact empty, timer,
      noGap, noRecord⟩, fun c hc => ?_⟩
    rw [still] at hc
    cases hc
  | some c =>
    obtain ⟨few, loud, gap, k, record, seen, covered⟩ := h.upTo was
    rw [was] at core
    obtain ⟨d, hd, same⟩ := Option.map_eq_some_iff.mp core
    have frames : d.frameCount = c.frameCount := congrArg Prod.snd same
    have kept := p.subs.seen
    rw [record] at kept
    obtain ⟨m, hm, pair⟩ := Option.map_eq_some_iff.mp kept
    obtain ⟨sameSeen, sameCovered⟩ := Prod.mk.injEq .. ▸ pair
    refine .of_current hd (by rw [frames]; exact few) (by rw [frames, p.loud]; exact loud) ⟨p.subs.gap gap, m, hm, ?_, ?_⟩
    · rw [sameSeen, seen, frames]
    · rw [sameCovered, frames]
      exact covered

/-! ### A frame at the Scheduler -/

/-- What an outlet's measurement is once the Scheduler has taken a frame and before the consumers have: a frame behind (R14). -/
structure Outlet.Behind (t : Outlet) (c : Current) (m : Nat) : Prop where
  current : t.sched.current = some c
  few : m ≤ 16777215
  frames : c.frameCount = min 16777215 (m + 1)
  loud : t.loud.UpTo m
  subs : t.subs.UpTo m

theorem emptySegLoud_counts : emptySegLoud.Counts 0 0 :=
  ⟨List.length_replicate, rfl, fun _ => ⟨rfl, by rw [emptySegLoud, emptyLoudRecord, List.sum_replicate]; rfl, rfl⟩⟩

/-- A segment begun has one frame, of which nothing is measured yet. -/
theorem State.begin_behind {s : State} {o : OutletId} (history : (s.outlet o).loud.history.length ≤ 30)
    (gap : (s.outlet o).subs.gap = none) (d : Declaration) (late : Bool) (a : Arrival) :
    ((s.begin o d late a).outlet o).Behind (s.begun d late a) 0 := by
  obtain ⟨b, sched, -⟩ := s.begin_sched o d late a
  obtain ⟨limit, subs⟩ := s.begin_subs o d late a
  have alike := s.begin_alike o d late a
  have fresh : Loud.Counts { (s.outlet o).loud.clearGathered with seg := some emptySegLoud } 0 :=
    ⟨history, emptySegLoud, rfl, emptySegLoud_counts⟩
  refine ⟨by rw [sched], Nat.zero_le _, rfl, ⟨fresh.alike alike, ?_⟩, ⟨fun opened => ?_, emptySubRecord, by rw [subs], rfl,
    Nat.zero_le _⟩⟩
  · rw [alike.gathered]
    show 0 < 4800
    decide
  · rw [subs] at opened
    rw [show ({ (s.outlet o).subs with timer := _, limit := _, record := _ } : Subs).gap = none from gap] at opened
    cases opened

/-- What is behind stays so while only the schedule's triggers move. -/
theorem Outlet.Behind.arms {t u : Outlet} {c d : Current} {m : Nat} (h : t.Behind c m) (current : u.sched.current = some d)
    (frames : d.frameCount = c.frameCount) (loud : u.loud = t.loud) (subs : u.subs = t.subs) : u.Behind d m :=
  ⟨current, h.few, frames.trans h.frames, by rw [loud]; exact h.loud, by rw [subs]; exact h.subs⟩

theorem State.testOverrun_behind {s : State} {o : OutletId} {c : Current} {m : Nat} (h : (s.outlet o).Behind c m) (stamp : AirTime) :
    ∃ d : Current, ((s.testOverrun o stamp).outlet o).Behind d m := by
  have spread : Spreads (fun _ x => x = .sched) s (s.testOverrun o stamp) := .testOverrun s rfl stamp
  exact ⟨c.marked (s.overruns o c), h.arms (by rw [State.testOverrun_sched h.current]) rfl (spread.loud nofun) (spread.subs nofun)⟩

theorem State.testFollow_behind {s : State} {o : OutletId} {c : Current} {m : Nat} (h : (s.outlet o).Behind c m) :
    ((s.testFollow o).outlet o).Behind c m := by
  have spread : Spreads (fun _ x => x = .sched) s (s.testFollow o) := .testFollow s rfl
  exact h.arms ((s.testFollow_arms o).frame.1.trans h.current) rfl (spread.loud nofun) (spread.subs nofun)

theorem State.slotEmptied_behind {s : State} {o : OutletId} {c : Current} {m : Nat} (h : (s.outlet o).Behind c m) :
    ((s.slotEmptied o).outlet o).Behind c m := by
  have spread : Spreads (fun _ x => x = .sched) s (s.slotEmptied o) := .slotEmptied s rfl
  obtain ⟨r, arms, emptied⟩ := s.slotEmptied_sched o
  exact h.arms (by rw [emptied]; exact arms.frame.1.trans h.current) rfl (spread.loud nofun) (spread.subs nofun)

theorem State.enterSegment_behind {s : State} {o : OutletId} (history : (s.outlet o).loud.history.length ≤ 30)
    (gap : (s.outlet o).subs.gap = none) (m : Armed) (a : Arrival) :
    ((s.enterSegment o m a).outlet o).Behind (s.begun m.decl m.lateStart a) 0 := by
  rw [State.enterSegment_eq]
  refine State.slotEmptied_behind (State.begin_behind ?_ ?_ m.decl m.lateStart a)
  · rw [(Spreads.modSched (R := fun _ x => x = .sched) s rfl _).loud nofun]
    exact history
  · rw [(Spreads.modSched (R := fun _ x => x = .sched) s rfl _).subs nofun]
    exact gap

/-- A frame taken by the Scheduler leaves the measurement of its outlet one frame behind. -/
theorem State.schedule_behind {s : State} {o : OutletId} (h : (s.outlet o).Measured) (first : Bool) (a : Arrival)
    (runs : first = false → (s.outlet o).sched.current.isSome = true) (waits : first = true → (s.outlet o).sched.current = none) :
    ∃ (c : Current) (m : Nat), ((s.schedule o first a).outlet o).Behind c m := by
  obtain ⟨history, -, -, rest, -⟩ := id h
  cases first with
  | true =>
    obtain ⟨-, -, gap, -⟩ := rest (waits rfl)
    cases due : s.dueAt o a.stamp with
    | some m =>
      rw [State.schedule_of_armed due]
      obtain ⟨c, behind⟩ := State.testOverrun_behind (State.enterSegment_behind history gap m a) a.stamp
      exact ⟨c, 0, behind⟩
    | none =>
      rw [State.schedule_of_undeclared due]
      obtain ⟨c, behind⟩ := State.testOverrun_behind (State.testFollow_behind (State.begin_behind history gap s.undeclared false a))
        a.stamp
      exact ⟨c, 0, behind⟩
  | false =>
    obtain ⟨c, current⟩ := Option.isSome_iff_exists.mp (runs rfl)
    cases due : s.dueAt o a.stamp with
    | some m =>
      rw [State.schedule_of_boundary due]
      obtain ⟨d, behind⟩ := State.testOverrun_behind (State.enterSegment_behind
        (State.closeSegment_history history .next .segmentEnd a.stamp)
        (State.closeSegment_gap current .next .segmentEnd a.stamp) m a) a.stamp
      exact ⟨d, 0, behind⟩
    | none =>
      rw [State.schedule_of_frame due]
      obtain ⟨few, loud, subs⟩ := h.upTo current
      have spread : Spreads (fun _ x => x = .sched) s (s.countFrame o a) := .countFrame s rfl a
      have counted : ((s.countFrame o a).outlet o).Behind (c.count a) c.frameCount := by
        refine ⟨?_, few, rfl, by rw [spread.loud nofun]; exact loud, by rw [spread.subs nofun]; exact subs⟩
        rw [State.countFrame, State.modSched_sched, current]
        rfl
      obtain ⟨d, behind⟩ := State.testOverrun_behind (State.testFollow_behind counted) a.stamp
      exact ⟨d, c.frameCount, behind⟩

/-! ### The consumers (R14) -/

/-- A law that one step of a fold brings about, that the other steps before it leave, and that those after it keep. -/
theorem foldl_once {σ α : Type} [DecidableEq α] {f : σ → α → σ} {P Q : σ → Prop} {x : α} {xs : List α} (once : xs.count x = 1)
    (before : ∀ (s : σ) (a : α), a ≠ x → P s → P (f s a)) (hit : ∀ s : σ, P s → Q (f s x))
    (after : ∀ (s : σ) (a : α), a ≠ x → Q s → Q (f s a)) {s : σ} (h : P s) : Q (xs.foldl f s) := by
  have keeps : ∀ (ys : List α) (u : σ), x ∉ ys → Q u → Q (ys.foldl f u) := by
    intro ys
    induction ys with
    | nil => exact fun _ _ q => q
    | cons y ys ih =>
      intro u absent q
      rw [List.mem_cons, not_or] at absent
      exact ih _ absent.2 (after u y (Ne.symm absent.1) q)
  induction xs generalizing s with
  | nil => simp at once
  | cons a xs ih =>
    rw [List.foldl_cons]
    by_cases here : a = x
    · subst here
      rw [List.count_cons_self] at once
      exact keeps xs _ (List.count_eq_zero.mp (by omega)) (hit s h)
    · rw [List.count_cons_of_ne here] at once
      exact ih once (before s a here h)

/-- Each consumer works once on a frame (R14). -/
theorem consumerOrder_once (n : Nat) (c : Consumer) : (consumerOrder n).count c = 1 := by
  have listed : ∀ order ∈ consumerOrders, ∀ c : Consumer, order.count c = 1 := by
    intro order h c
    fin_cases h <;> cases c <;> rfl
  have below : Config.consumerOrder n % 6 < consumerOrders.length := Nat.mod_lt _ (by decide)
  refine listed _ ?_ c
  unfold consumerOrder
  rw [List.getD_eq_getElem _ _ below]
  exact List.getElem_mem below

theorem SegLoud.Counts.saturate {g : SegLoud} {gathered m n : Nat} (h : g.Counts gathered m) (full : 1920 * 16777215 ≤ n) :
    g.Counts gathered n :=
  ⟨h.bins, h.window, fun small => absurd small (Nat.not_lt.mpr full)⟩

/-- The Loudness Engine takes the frame that it is behind by. -/
theorem State.measure_upTo {s : State} {o : OutletId} {m : Nat} (few : m ≤ 16777215) (h : (s.outlet o).loud.UpTo m) (stamp : AirTime)
    {xs : List (Six Int)} (frame : xs.length = 1920) : ((s.measure o stamp xs).outlet o).loud.UpTo (min 16777215 (m + 1)) := by
  obtain ⟨counts, below⟩ := State.measure_counts h.counts h.below stamp frame
  refine ⟨?_, below⟩
  by_cases room : m + 1 ≤ 16777215
  · rw [Nat.min_eq_right room, Nat.mul_add]
    exact counts
  · obtain ⟨history, g, seg, counted⟩ := counts
    refine ⟨history, g, seg, counted.saturate ?_⟩
    omega

theorem Subs.passed_gap {b : Subs} (h : b.gap.isSome = true → b.timer = .expired) (start : AirTime) (rfn : Option Rfn)
    (opened : (b.passed start rfn).gap.isSome = true) : (b.passed start rfn).timer = .expired := by
  unfold Subs.passed at opened ⊢
  split at opened
  · rename_i g was
    exact h (by rw [was]; rfl)
  · rename_i none
    split at opened
    · split at opened
      · rename_i last
        simp only [if_pos last]
      · simp [none] at opened
    · rw [none] at opened
      cases opened
    · rw [none] at opened
      cases opened

/-- No more frames are covered than seen (R81). -/
theorem covered_le {covered m : Nat} (few : m ≤ 16777215) (h : covered ≤ m) (showing : Bool) :
    (if showing then min 16777215 (covered + 1) else covered) ≤ min 16777215 (m + 1) := by
  split <;> omega

/-- The Subtitle Checker takes the frame that it is behind by. -/
theorem State.checkSubtitles_upTo {s : State} {o : OutletId} {c : Current} {m : Nat} (current : s.current o = some c)
    (few : m ≤ 16777215) (h : (s.outlet o).subs.UpTo m) (a : AirTime) (n : Rfn) (units : List SubUnit) :
    ((s.checkSubtitles o a n units).outlet o).subs.UpTo (min 16777215 (m + 1)) := by
  obtain ⟨-, -, -, record, ⟨d, gap, timer, finalGap, finalTimer⟩, -⟩ := State.checkSubtitles_spec current a n units
  obtain ⟨k, was, seen, covered⟩ := h.record
  obtain ⟨g, after⟩ := record k was
  refine ⟨fun opened => ?_, _, after, ?_, ?_⟩
  · rw [finalGap] at opened
    rw [finalTimer]
    refine Subs.passed_gap (fun some => ?_) _ _ opened
    split at gap
    · rename_i none
      rw [if_pos none] at timer
      rw [timer]
      exact h.gap (by rwa [gap] at some)
    · rw [gap] at some
      cases some
  · show min 16777215 (k.framesSeen + 1) = _
    rw [seen]
  · exact covered_le few covered _

/-- The three consumers, in whatever order, bring the measurement in step with the frame (R14). -/
theorem State.consumers_measured {s : State} {h : HandOff} {c : Current} {m : Nat} (behind : (s.outlet h.outlet).Behind c m)
    (frame : h.frame.audio.length = 1920) (n : Nat) :
    (((consumerOrder n).foldl h.consume s).outlet h.outlet).Measured := by
  have loudKept : ∀ (u : State) (x : Consumer), x ≠ .loudness →
      ((h.consume u x).outlet h.outlet).loud = (u.outlet h.outlet).loud := fun u x other => by
    cases x with
    | loudness => exact absurd rfl other
    | subtitles => exact (Spreads.checkSubtitles (R := fun _ x => x ≠ .loud) u nofun nofun _ _ _).loud (by simp)
    | writer => exact (Spreads.record (R := fun _ x => x ≠ .loud) u nofun _).loud (by simp)
  have subsKept : ∀ (u : State) (x : Consumer), x ≠ .subtitles →
      ((h.consume u x).outlet h.outlet).subs = (u.outlet h.outlet).subs := fun u x other => by
    cases x with
    | loudness => exact (Spreads.measure (R := fun _ x => x ≠ .subs) u nofun nofun _ _).subs (by simp)
    | subtitles => exact absurd rfl other
    | writer => exact (Spreads.record (R := fun _ x => x ≠ .subs) u nofun _).subs (by simp)
  have schedKept : ∀ (u : State) (x : Consumer), (h.consume u x).current h.outlet = u.current h.outlet := fun u x =>
    congrArg Sched.current ((Spreads.consume (R := fun _ x => x ≠ .sched) u h nofun nofun nofun nofun x).sched (by simp))
  have loud : (((consumerOrder n).foldl h.consume s).outlet h.outlet).loud.UpTo c.frameCount := by
    rw [behind.frames]
    refine foldl_once (f := h.consume) (xs := consumerOrder n) (x := .loudness) (P := fun u : State => (u.outlet h.outlet).loud.UpTo m)
      (Q := fun u : State => (u.outlet h.outlet).loud.UpTo (min 16777215 (m + 1))) (consumerOrder_once n .loudness) ?_ ?_ ?_ behind.loud
    · intro u x other upTo
      rw [loudKept u x other]
      exact upTo
    · intro u upTo
      exact State.measure_upTo behind.few upTo _ frame
    · intro u x other upTo
      rw [loudKept u x other]
      exact upTo
  have subs : (((consumerOrder n).foldl h.consume s).outlet h.outlet).subs.UpTo c.frameCount := by
    rw [behind.frames]
    refine foldl_once (f := h.consume) (xs := consumerOrder n) (x := .subtitles)
      (P := fun u : State => u.current h.outlet = some c ∧ (u.outlet h.outlet).subs.UpTo m)
      (Q := fun u : State => (u.outlet h.outlet).subs.UpTo (min 16777215 (m + 1))) (consumerOrder_once n .subtitles) ?_ ?_ ?_
      ⟨behind.current, behind.subs⟩
    · intro u x other upTo
      rw [schedKept, subsKept u x other]
      exact upTo
    · intro u upTo
      exact State.checkSubtitles_upTo upTo.1 behind.few upTo.2 _ _ _
    · intro u x other upTo
      rw [subsKept u x other]
      exact upTo
  have current : ((((consumerOrder n).foldl h.consume s)).outlet h.outlet).sched.current = some c := by
    rw [(Spreads.consuming s h _).sched (by simp)]
    exact behind.current
  refine .of_current current ?_ loud subs
  rw [behind.frames]
  exact Nat.min_le_left _ _

/-- An arrival keeps the measurement of its outlet in step. -/
theorem State.arrive_measured {s : State} {o : OutletId} (lawful : (s.outlet o).Lawful) (h : (s.outlet o).Measured)
    (on : (s.outlet o).intake.state ≠ .off) (bytes : Bytes) (n : Nat) :
    ((s.arrive o (treat o bytes) (consumerOrder n)).outlet o).Measured := by
  have arrived := Spreads.arrived s o (treat o bytes)
  have before : ((s.arrived o (treat o bytes)).outlet o).Measured :=
    h.unmoved ⟨arrived.sched (by simp), arrived.loud (by simp), arrived.subs (by simp)⟩
  obtain ⟨c, m, behind⟩ := State.schedule_behind before ((s.outlet o).intake.state == .waiting) (s.handOff o (treat o bytes)).arrival
    (fun later => by
      rw [State.arrived_sched]
      have waits : (s.outlet o).intake.state ≠ .waiting := by simpa using later
      refine lawful.1.mpr ?_
      cases state : (s.outlet o).intake.state with
      | off => exact absurd state on
      | waiting => exact absurd state waits
      | active => exact .inl rfl
      | lost => exact .inr rfl)
    (fun first => by
      rw [State.arrived_sched]
      have waits : (s.outlet o).intake.state = .waiting := by simpa using first
      refine Option.not_isSome_iff_eq_none.mp fun some => ?_
      obtain active | lost := lawful.1.mp some
      · rw [waits] at active
        cases active
      · rw [waits] at lost
        cases lost)
  rw [State.arrive, State.takeFrame_eq]
  exact State.consumers_measured (h := s.handOff o (treat o bytes)) behind (treat_audio_length o bytes) n

/-- Every command keeps the measurement in step. -/
theorem exec_measurement {c : Instr} {s t : State} (laws : OutletLaws s) (h : MeasurementLaws s) (taken : exec c s = .next t) :
    MeasurementLaws t := by
  intro o
  have before : (s.outlet o).Measured := h o
  show (t.outlet o).Measured
  obtain kept | special := (exec_effect taken).parts
  · by_cases arrives : ∃ (p : OutletId) (bytes : Bytes), c = .airFrameArrival p bytes
    · obtain ⟨p, bytes, rfl⟩ := arrives
      by_cases here : o = p
      · subst here
        obtain same | ⟨on, same⟩ := exec_arrival_cases taken
        · rw [same]
          exact before
        · rw [same, State.refresh_outlet]
          exact State.arrive_measured (s := s.useFree 1) (laws.lawful o) before on bytes s.free
      · rw [arrival_rests kept here]
        exact before
    · by_cases declares : ∃ l : Link, c = .segDeclare l
      · obtain ⟨l, rfl⟩ := declares
        exact before.proceeds (declare_proceeds taken o).1
      · exact before.proceeds
          (exec_rests (G := True) taken kept (fun o b e => arrives ⟨o, b, e⟩) (fun l e => declares ⟨l, e⟩) o).1
  · obtain same | restored := special o
    · exact before.unmoved same
    · exact restored.measured

/-- Settles O8: a frame is counted by the Scheduler, and each consumer brings its measurement in step with it. -/
theorem measurementKept : Obligations.MeasurementKept := by
  intro s t laws h taken
  obtain idles | ⟨c, rest, -, same⟩ := step_cases s
  · cases idles.symm.trans taken
    exact h
  · exact exec_measurement (s := { s with pending := rest }) laws h (same.symm.trans taken)

end Sys2Proof.Machine
end


section
/-! Deferred reads and the completions of fetches (R128, R156, R157, R166, R167): what passes from a table to a fetch queue or to the
responses of its link, and what a completed fetch answers. -/

namespace Sys2Proof.Machine

/-! ### The attention lines -/

theorem State.refresh_link (s : State) (l : Link) :
    s.refresh.link l = { s.link l with attention := (s.refresh.link l).attention } := by
  cases l <;> rfl

theorem State.refresh_but_links (s : State) : { s.refresh with links := s.links } = s := rfl

/-- Beside a link's port nothing changes where one port is changed. -/
theorem State.modLink_but_links (s : State) (l : Link) (f : LinkPort → LinkPort) : { s.modLink l f with links := s.links } = s := rfl

/-! ### Responses to deferred reads (R166, R167) -/

@[simp] theorem State.respond_pageFound (s : State) (l : Link) (tag : Tag) (code : Byte) (status : Status) (body : Body)
    (o : OutletId) (q : BitVec 32) (bytes : Bytes) :
    (s.respond l tag code status body).pageFound o q bytes = s.pageFound o q bytes := rfl

/-- A port whose deferred reads were answered, one after another. -/
def LinkPort.answeredReads (p : LinkPort) (ds : List Deferred) (status : Status) (body : Deferred → Body) : LinkPort :=
  { p with
    outstanding := (ds.map Deferred.tag).foldl List.erase p.outstanding
    responses := p.responses ++ ds.map fun d => { tag := d.tag, code := 11, status := status, body := body d } }

theorem LinkPort.answeredReads_nil (p : LinkPort) (status : Status) (body : Deferred → Body) :
    p.answeredReads [] status body = p := by
  simp [LinkPort.answeredReads]

theorem LinkPort.answeredReads_cons (p : LinkPort) (d : Deferred) (ds : List Deferred) (status : Status) (body : Deferred → Body) :
    p.answeredReads (d :: ds) status body = (p.respond d.tag 11 status (body d)).answeredReads ds status body := by
  simp [LinkPort.answeredReads, LinkPort.respond]

theorem State.modLink_self (s : State) (l : Link) : s.modLink l (fun p => p) = s := by
  cases l <;> rfl

/-- Reads answered with the page as it is found: the pages are found as they were before the first answer. -/
theorem State.foldl_respond_pageFound (l : Link) (status : Status) (ds : List Deferred) (s : State) :
    ds.foldl (fun t d => t.respond l d.tag 11 status (t.pageFound d.outlet d.sequence [])) s =
      s.modLink l fun p => p.answeredReads ds status fun d => s.pageFound d.outlet d.sequence [] := by
  induction ds generalizing s with
  | nil => simp only [List.foldl_nil, LinkPort.answeredReads_nil, State.modLink_self]
  | cons d ds ih =>
    rw [List.foldl_cons, ih]
    simp only [State.respond_pageFound]
    unfold State.respond
    rw [State.modLink_modLink]
    simp only [LinkPort.answeredReads_cons]

theorem timeOutDeferred_eq (l : Link) (s : State) :
    timeOutDeferred l s =
      (s.modLink l fun p =>
        { p with deferred := p.deferred.filter fun d => !d.timedOut }.answeredReads
          (s.shuffled ((s.link l).deferred.filter Deferred.timedOut)) .notYet fun d => s.pageFound d.outlet d.sequence []).useFree 1 := by
  unfold timeOutDeferred
  dsimp only
  rw [State.foldl_respond_pageFound, State.modLink_modLink]
  rfl

theorem abortDeferred_eq (l : Link) (s : State) :
    abortDeferred l s =
      (s.modLink l fun p =>
        { p with deferred := [] }.answeredReads
          (s.shuffled (s.link l).deferred) .aborted fun d => s.pageFound d.outlet d.sequence []).useFree 1 := by
  unfold abortDeferred
  dsimp only
  rw [State.foldl_respond_pageFound, State.modLink_modLink]
  rfl

/-- Settles O42: the table's entries of age 50 are answered in the order that the free choice gives them. -/
theorem deferredReadTimesOut : Obligations.DeferredReadTimesOut := by
  unfold Obligations.DeferredReadTimesOut
  rintro s l m power ⟨d, mem, age⟩ other
  have standing : (s.powered && (s.link l).deferred.any Deferred.timedOut) = true := by
    rw [power, Bool.true_and, List.any_eq_true]
    exact ⟨d, mem, decide_eq_true age⟩
  have executed : exec (.deferredReadTimeout l) s = .next (timeOutDeferred l s).refresh :=
    (when_next _ _ _).trans (congrArg _ (if_pos standing))
  refine ⟨_, s.shuffled ((s.link l).deferred.filter Deferred.timedOut), executed, s.shuffled_perm _, ?_, ?_, ?_⟩
  · rw [State.refresh_link, timeOutDeferred_eq]
    have link (t : State) : (t.useFree 1).link l = t.link l := rfl
    rw [link, State.modLink_link]
    have kept : (s.link l).deferred.filter (fun d => !d.timedOut) = (s.link l).deferred.filter fun d => decide (d.age < 50) :=
      List.filter_congr fun d _ => by simp [Deferred.timedOut, ← decide_not]
    simp only [LinkPort.answeredReads, kept]
    rfl
  · rw [State.refresh_link, timeOutDeferred_eq]
    have link (t : State) : (t.useFree 1).link m = t.link m := rfl
    rw [link, State.modLink_link_of_ne s other]
  · rw [timeOutDeferred_eq]
    rfl

/-! ### The completion of a page read's fetch (R128, R167) -/

theorem State.freePort_of_running {s : State} (running : s.restarting = none) : s.freePort = { s with port := none } := by
  unfold State.freePort State.resumeRestart
  rw [running]

theorem exec_pageReadFetchComplete_of_read {s : State} {l : Link} {tag : Tag} {o : OutletId} {q : BitVec 32}
    {page offset length : Nat} {short abandoned : Bool}
    (read : s.port = some (.read l (.page tag o q page offset length short) abandoned)) :
    exec .pageReadFetchComplete s =
      .next (if abandoned then s.freePort
        else ((s.answerPage l tag o q page offset length short).releaseLink l tag).freePort).refresh := by
  change execPageReadFetchComplete s = _
  unfold execPageReadFetchComplete
  rw [read]
  cases abandoned <;> rfl

/-- A fetch answered and its link freed, as one change of its port. -/
theorem State.respond_releaseLink (s : State) (l : Link) (tag : Tag) (code : Byte) (status : Status) (body : Body) :
    (s.respond l tag code status body).releaseLink l tag =
      s.modLink l fun p =>
        { p with
          held := if p.held = some tag then none else p.held
          outstanding := p.outstanding.erase tag
          responses := p.responses ++ [{ tag := tag, code := code, status := status, body := body }] } := by
  unfold State.respond State.releaseLink
  rw [State.modLink_modLink]
  rfl

/-- Settles O40: the page is looked up again when its fetch completes. -/
theorem pageFetchAnswered : Obligations.PageFetchAnswered := by
  unfold Obligations.PageFetchAnswered
  intro s l tag o q page offset length short abandoned read running
  have executed := exec_pageReadFetchComplete_of_read read
  refine ⟨fun given => ?_, fun given missing => ?_, fun n e given found => ?_⟩ <;> subst given
  · rw [executed]
    exact next_refresh_congr ((if_pos rfl).trans (State.freePort_of_running running))
  · rw [executed]
    refine next_refresh_congr ((if_neg Bool.false_ne_true).trans ?_)
    unfold State.answerPage
    rw [missing]
    dsimp only
    rw [State.respond_releaseLink]
    exact State.freePort_of_running running
  · rw [executed]
    refine next_refresh_congr ((if_neg Bool.false_ne_true).trans ?_)
    unfold State.answerPage
    rw [found]
    dsimp only
    rw [State.respond_releaseLink]
    exact State.freePort_of_running running

/-! ### The completion of an evidence read's fetch (R156, R157) -/

/-- The evidence after an EVID-READ response: on the automation link the skipped count it carried is then 0. -/
def Evidence.answeredOn (e : Evidence) (l : Link) : Evidence :=
  if l = .automation then { e with skipped := 0 } else e

theorem State.answerRead_eq (s : State) (l : Link) (tag : Tag) (status : Status) (first : Option (BitVec 32)) (records : List Bytes) :
    s.answerRead l tag status first records =
      { s.respond l tag 16 status (s.evidBody l first records s.evidence.skipped) with
        evidence := s.evidence.answeredOn l } := by
  cases l <;> rfl

theorem exec_evidReadFetchComplete_of_read {s : State} {l : Link} {tag : Tag} {first : BitVec 32} {fixed asked : Nat}
    {cleared abandoned : Bool} (read : s.port = some (.read l (.evid tag first fixed asked cleared) abandoned)) :
    exec .evidReadFetchComplete s =
      .next (if abandoned then s.freePort
        else if cleared then ((s.answerRead l tag .short none []).releaseLink l tag).freePort
        else ((s.finishRead l tag first fixed asked).releaseLink l tag).freePort).refresh := by
  change execEvidReadFetchComplete s = _
  unfold execEvidReadFetchComplete
  rw [read]
  cases abandoned <;> cases cleared <;> rfl

/-- A read's answer as its link and the evidence then stand: the response joins the others, the link is freed where the read held
it, and nothing else changes. -/
theorem State.answerRead_completes (s : State) (l : Link) (tag : Tag) (status : Status) (first : Option (BitVec 32))
    (records : List Bytes) (running : s.restarting = none) :
    let u := ((s.answerRead l tag status first records).releaseLink l tag).freePort.refresh
    (u.link l).responses = (s.link l).responses ++
        [{ tag := tag, code := 16, status := status, body := s.evidBody l first records s.evidence.skipped }] ∧
      (u.link l).held = (if (s.link l).held = some tag then none else (s.link l).held) ∧
      u.evidence = s.evidence.answeredOn l ∧ { u with port := s.port, evidence := s.evidence, links := s.links } = s := by
  intro u
  let answered : State :=
    { s.modLink l fun p =>
        { p with
          held := if p.held = some tag then none else p.held
          outstanding := p.outstanding.erase tag
          responses := p.responses ++
            [{ tag := tag, code := 16, status := status, body := s.evidBody l first records s.evidence.skipped }] } with
      evidence := s.evidence.answeredOn l
      port := none }
  have eq : u = answered.refresh := by
    have written : (s.answerRead l tag status first records).releaseLink l tag =
        { ((s.respond l tag 16 status (s.evidBody l first records s.evidence.skipped)).releaseLink l tag) with
          evidence := s.evidence.answeredOn l } := by
      rw [State.answerRead_eq]
      rfl
    change ((s.answerRead l tag status first records).releaseLink l tag).freePort.refresh = _
    rw [written, State.respond_releaseLink]
    exact congrArg State.refresh (State.freePort_of_running running)
  have link : answered.link l = _ := State.modLink_link s l _
  rw [eq, State.refresh_link, link]
  exact ⟨rfl, rfl, rfl, rfl⟩

/-- The records of a read that now lie before the tail. -/
theorem min_passedBy (fixed : Nat) (tail first : BitVec 32) :
    min fixed (passedBy tail first) = if (tail - first).toNat < 2147483648 then min fixed (tail - first).toNat else 0 := by
  unfold passedBy
  split
  · rfl
  · exact Nat.min_zero fixed

/-- A read with nothing left is answered SHORT, and otherwise with the records not yet before the tail. -/
theorem State.finishRead_eq (s : State) (l : Link) (tag : Tag) (first : BitVec 32) (fixed asked gone : Nat)
    (passed : gone = min fixed (passedBy s.evidence.tail first)) :
    s.finishRead l tag first fixed asked =
      if fixed - gone = 0 then s.answerRead l tag .short none []
      else
        (s.modEvidence fun e => e.advanceCursor l (first + BitVec.ofNat 32 gone + BitVec.ofNat 32 (fixed - gone))).answerRead l tag
          (if fixed - gone = asked then .ok else .short) (some (first + BitVec.ofNat 32 gone))
          ((List.range (fixed - gone)).map fun i => s.recordAt (first + BitVec.ofNat 32 gone + BitVec.ofNat 32 i)) := by
  rw [passed]
  rfl

theorem State.modEvidence_evidBody (s : State) (l : Link) (past : BitVec 32) (first : Option (BitVec 32)) (records : List Bytes) :
    ∃ a : Option (BitVec 32 × Nat),
      (s.modEvidence fun e => e.advanceCursor l past).evidBody l first records
          (s.modEvidence fun e => e.advanceCursor l past).evidence.skipped =
        .evidRead first records s.evidence.head s.evidence.tail s.evidence.unacknowledged s.evidence.lost a := by
  cases l with
  | compliance => exact ⟨_, rfl⟩
  | automation =>
    unfold State.evidBody State.modEvidence Evidence.advanceCursor
    dsimp only
    split <;> exact ⟨_, rfl⟩

/-- Settles O49: by whether the read was given up, has nothing left, or returns records. -/
theorem evidFetchAnswered : Obligations.EvidFetchAnswered := by
  unfold Obligations.EvidFetchAnswered
  intro s l tag first fixed asked cleared abandoned read running e gone start count
  have executed := exec_evidReadFetchComplete_of_read read
  have passed : gone = min fixed (passedBy s.evidence.tail first) := (min_passedBy fixed s.evidence.tail first).symm
  refine ⟨fun given => ?_, fun given => ?_⟩ <;> subst given
  · rw [executed]
    exact next_refresh_congr ((if_pos rfl).trans (State.freePort_of_running running))
  · by_cases nothing : cleared = true ∨ count = 0
    · obtain ⟨responses, held, evidence, frame⟩ := s.answerRead_completes l tag .short none [] running
      refine ⟨_, _, ?_, responses, rfl, rfl, held, fun _ => ⟨rfl, ⟨_, _, _, _, _, rfl⟩, evidence⟩, fun kept some => ?_, frame⟩
      · rw [executed]
        refine next_refresh_congr ((if_neg Bool.false_ne_true).trans ?_)
        cases cleared with
        | true => exact if_pos rfl
        | false =>
          have none : fixed - gone = 0 := nothing.resolve_left Bool.false_ne_true
          rw [if_neg Bool.false_ne_true, s.finishRead_eq l tag first fixed asked gone passed, if_pos none]
      · exact absurd nothing (not_or.mpr ⟨fun h => Bool.false_ne_true (kept.symm.trans h), some.ne'⟩)
    · obtain ⟨uncleared, left⟩ := not_or.mp nothing
      have uncleared : cleared = false := Bool.eq_false_of_not_eq_true uncleared
      subst uncleared
      obtain ⟨responses, held, evidence, frame⟩ :=
        (s.modEvidence fun e => e.advanceCursor l (start + BitVec.ofNat 32 count)).answerRead_completes l tag
          (if count = asked then .ok else .short) (some start)
          ((List.range count).map fun i => s.recordAt (start + BitVec.ofNat 32 i)) running
      obtain ⟨a, body⟩ := s.modEvidence_evidBody l (start + BitVec.ofNat 32 count) (some start)
        ((List.range count).map fun i => s.recordAt (start + BitVec.ofNat 32 i))
      refine ⟨_, _, ?_, responses, rfl, rfl, held, fun h => absurd h nothing, fun _ _ => ⟨rfl, ⟨a, body⟩, fun link => ?_, fun link => ?_⟩,
        ?_⟩
      · rw [executed]
        refine next_refresh_congr ((if_neg Bool.false_ne_true).trans ?_)
        rw [if_neg Bool.false_ne_true, s.finishRead_eq l tag first fixed asked gone passed]
        exact congrArg (fun t : State => (t.releaseLink l tag).freePort) (if_neg left)
      · subst link
        exact evidence
      · subst link
        rw [evidence]
        refine ⟨rfl, ?_, ?_⟩
        · change ({ (s.evidence.advanceCursor .automation _) with cursor := _, skipped := _ } : Evidence) = _
          unfold Evidence.advanceCursor
          dsimp only
          split <;> rfl
        · change (s.evidence.advanceCursor .automation _).cursor = _
          unfold Evidence.advanceCursor
          dsimp only
          split <;> rfl
      · exact congrArg (fun t : State => { t with evidence := s.evidence }) frame

end Sys2Proof.Machine
end


section
/-! The evidence ring's bursts (R152 to R154): what a grant forms and settles, and what its completion stores. -/

namespace Sys2Proof.Machine

/-! ### The completion of a burst (R153) -/

theorem exec_evidenceBurstComplete_of_evidence {s : State} {n : Nat} (burst : s.port = some (.evidence n)) :
    exec .evidenceBurstComplete s = .next (s.writeEvidence n).freePort.refresh := by
  change execEvidenceBurstComplete s = _
  unfold execEvidenceBurstComplete
  rw [burst]
  rfl

/-- Settles O47: the burst's bytes are written at the head's slot. -/
theorem evidenceBurstStores : Obligations.EvidenceBurstStores := by
  unfold Obligations.EvidenceBurstStores
  intro s n burst running base bytes
  refine ⟨writeBytes s.memory base bytes, ?_, fun a => readByte_writeBytes s.memory base a bytes⟩
  rw [exec_evidenceBurstComplete_of_evidence burst]
  exact next_refresh_congr (State.freePort_of_running (s := s.writeEvidence n) running)

/-! ### The burst at a grant (R152, R154) -/

/-- A list changed in its first entries alone. -/
theorem mapIdx_take_append_drop {α : Type} (f : Nat → α → α) (n : Nat) (xs : List α) :
    (xs.take n).mapIdx f ++ xs.drop n = xs.mapIdx fun i x => if i < n then f i x else x := by
  refine List.ext_getElem? fun i => ?_
  rw [List.getElem?_append, List.length_mapIdx, List.length_take, List.getElem?_mapIdx, List.getElem?_mapIdx,
    List.getElem?_drop, List.getElem?_take]
  by_cases early : i < n
  · by_cases inside : i < xs.length
    · simp [early, inside]
    · have beyond : xs[n + (i - min n xs.length)]? = none := List.getElem?_eq_none (by omega)
      simp [early, inside, beyond]
  · have late : ¬i < min n xs.length := by omega
    rw [if_neg late]
    by_cases short : xs.length ≤ n
    · have past : xs[i]? = none := List.getElem?_eq_none (by omega)
      have beyond : xs[n + (i - min n xs.length)]? = none := List.getElem?_eq_none (by omega)
      rw [past, beyond]
      rfl
    · have place : n + (i - min n xs.length) = i := by omega
      rw [place]
      simp [early]

/-- Settles O46: the burst's records are settled one after another; together they overwrite what the ring cannot hold beside them. -/
theorem evidenceBurstGranted : Obligations.EvidenceBurstGranted := by
  unfold Obligations.EvidenceBurstGranted
  intro s d power free decided evidence c n some_slots small room cursor e overwritten behind after
  have within : n ≤ c := (Nat.min_le_right _ _).trans ((Nat.min_le_right _ _).trans (Nat.sub_le _ _))
  have queued : (s.evidence.fifo.take n).length = n :=
    List.length_take_of_le ((Nat.min_le_right _ _).trans (Nat.min_le_left _ _))
  have few : n ≤ 32 := Nat.min_le_left _ _
  have settled := Evidence.settleBurst_spec c s.evidence s.evidence.head (s.evidence.fifo.take n) small room
    (by rw [queued]; exact few.trans (by decide)) cursor
  rw [queued] at settled
  refine ⟨?_, ?_, ?_⟩
  · rw [exec_arbiterGrant_of_decision power free decided, evidence]
    change Host.Outcome.next (State.grantEvidence { s with highPos := d.highPos, lowPos := d.lowPos }).refresh = _
    refine next_refresh_congr ?_
    have formed : (Evidence.settleBurst c s.evidence s.evidence.head (s.evidence.fifo.take n)).2 ++ s.evidence.fifo.drop n =
        after.fifo := by
      rw [settled, mapIdx_take_append_drop]
      refine congrArg (fun f => List.mapIdx f s.evidence.fifo) (funext fun i => funext fun r => ?_)
      by_cases early : i < n
      · rw [if_pos early]
        exact if_congr (and_iff_right early).symm rfl rfl
      · rw [if_neg early, if_neg fun h => early h.1]
    have ring : { (Evidence.settleBurst c s.evidence s.evidence.head (s.evidence.fifo.take n)).1 with fifo := after.fifo } = after := by
      rw [settled]
      rfl
    rw [← formed] at ring
    exact congrArg (fun v : Evidence => { s with highPos := d.highPos, lowPos := d.lowPos, port := some (.evidence n), evidence := v })
      ring
  · change (e.head - (e.tail + BitVec.ofNat 32 overwritten)).toNat + n ≤ c
    have bound : overwritten ≤ (e.head - e.tail).toNat := by
      change (e.head - e.tail).toNat + n - c ≤ _
      omega
    have fits : overwritten + c ≥ (e.head - e.tail).toNat + n := by
      change (e.head - e.tail).toNat + n - c + c ≥ _
      omega
    have left : (e.head - (e.tail + BitVec.ofNat 32 overwritten)).toNat = (e.head - e.tail).toNat - overwritten := by bv_omega
    omega
  · change ((if behind < overwritten then e.tail + BitVec.ofNat 32 overwritten else e.cursor) -
      (e.tail + BitVec.ofNat 32 overwritten)).toNat ≤ (e.head - (e.tail + BitVec.ofNat 32 overwritten)).toNat
    have order : (e.cursor - e.tail).toNat ≤ (e.head - e.tail).toNat := cursor
    by_cases passed : behind < overwritten
    · rw [if_pos passed, BitVec.sub_self]
      exact Nat.zero_le _
    · rw [if_neg passed]
      have ahead : overwritten ≤ (e.cursor - e.tail).toNat := Nat.le_of_not_lt passed
      bv_omega

end Sys2Proof.Machine
end


section
/-! The Hold Table (chapter 8): hold ids, the pages of a range, and what placing and releasing a hold do to hold counts and budget. -/

namespace Sys2Proof.Machine

/-! ### Hold ids (R136) -/

theorem nextHoldId_wraps (a : Nat) : nextHoldId (a % 65535 + 1) = (a + 1) % 65535 + 1 := by
  unfold nextHoldId
  split <;> omega

/-- A counter advanced at most `fuel` times stands at the first of the next ids that no entry holds, or every one of them is held. -/
theorem advanceId_spec (holds : List Hold) (fuel a n : Nat) (next : nextHoldId n = a % 65535 + 1) :
    (∃ k : Nat, advanceId holds fuel n = (a + k) % 65535 + 1 ∧ ∀ h ∈ holds, h.id ≠ advanceId holds fuel n) ∨
      ∀ k : Nat, k < fuel → (a + k) % 65535 + 1 ∈ holds.map Hold.id := by
  induction fuel generalizing a n with
  | zero => exact .inr fun k impossible => absurd impossible (Nat.not_lt_zero k)
  | succ fuel ih =>
    unfold advanceId
    rw [next]
    by_cases taken : holds.any (fun h => h.id == a % 65535 + 1) = true
    · rw [if_pos taken]
      have mem : a % 65535 + 1 ∈ holds.map Hold.id := by
        obtain ⟨h, present, same⟩ := List.any_eq_true.mp taken
        exact List.mem_map.mpr ⟨h, present, eq_of_beq same⟩
      obtain ⟨k, value, free⟩ | all := ih (a + 1) _ (nextHoldId_wraps a)
      · exact .inl ⟨k + 1, by rw [value, Nat.add_assoc, Nat.add_comm 1], free⟩
      · refine .inr fun k bound => ?_
        cases k with
        | zero => exact mem
        | succ k =>
          have held := all k (Nat.lt_of_succ_lt_succ bound)
          rwa [Nat.add_assoc, Nat.add_comm 1] at held
    · rw [if_neg taken]
      refine .inl ⟨0, rfl, fun h present same => taken (List.any_eq_true.mpr ⟨h, present, beq_iff_eq.mpr same⟩)⟩

/-- With the table not full, the id taken is in range and no entry has it: of 33 ids in a row, not all are held. -/
theorem State.takeHoldId_spec (s : State) (room : s.holds.length < 32) :
    1 ≤ s.takeHoldId ∧ s.takeHoldId ≤ 65535 ∧ ∀ h ∈ s.holds, h.id ≠ s.takeHoldId := by
  obtain ⟨a, next⟩ : ∃ a : Nat, nextHoldId s.holdCounter = a % 65535 + 1 := by
    refine ⟨nextHoldId s.holdCounter - 1, ?_⟩
    unfold nextHoldId
    split <;> omega
  obtain ⟨k, value, free⟩ | all := advanceId_spec s.holds 33 a s.holdCounter next
  · refine ⟨?_, ?_, free⟩ <;> rw [show s.takeHoldId = (a + k) % 65535 + 1 from value]
    · exact Nat.le_add_left 1 _
    · omega
  · have distinct : ((List.range 33).map fun k => (a + k) % 65535 + 1).Nodup := by
      refine List.Nodup.map_on (fun x hx y hy same => ?_) List.nodup_range
      rw [List.mem_range] at hx hy
      omega
    have within : ((List.range 33).map fun k => (a + k) % 65535 + 1) ⊆ s.holds.map Hold.id := by
      intro n mem
      obtain ⟨k, bound, rfl⟩ := List.mem_map.mp mem
      exact all k (List.mem_range.mp bound)
    have many := (distinct.subperm within).length_le
    rw [List.length_map, List.length_map, List.length_range] at many
    omega

/-! ### The pages of a range (R135, R137, R138) -/

theorem fromFirst_sublist {α : Type} (p : α → Bool) (xs : List α) : (fromFirst p xs).Sublist xs :=
  List.dropWhile_sublist _

theorem trimRange_sublist (held budget : Nat) (xs : List (Nat × PageEntry)) : (trimRange held budget xs).Sublist xs := by
  induction xs with
  | nil => exact List.Sublist.refl _
  | cons x xs ih =>
    unfold trimRange
    split
    · exact List.Sublist.refl _
    · exact ih.trans (List.sublist_cons_self x xs)

/-- A trimmed range that is not empty keeps within the budget. -/
theorem trimRange_within {held budget : Nat} {xs : List (Nat × PageEntry)} (some : trimRange held budget xs ≠ []) :
    held + newlyHeld (trimRange held budget xs) ≤ budget := by
  induction xs with
  | nil => exact absurd rfl some
  | cons x xs ih =>
    unfold trimRange at some ⊢
    by_cases fits : held + newlyHeld (x :: xs) ≤ budget
    · rw [if_pos fits]
      exact fits
    · rw [if_neg fits] at some ⊢
      exact ih some

theorem State.candidates_sublist (s : State) (o : OutletId) (first last : AirTime) :
    (s.candidates o first last).Sublist (s.ringInSequence o) := by
  unfold State.candidates
  have inner := fromFirst_sublist (fun x : Nat × PageEntry => x.2.intersects first last) (s.ringInSequence o)
  have outer := (fromFirst_sublist (fun x : Nat × PageEntry => x.2.intersects first last)
    (fromFirst (fun x : Nat × PageEntry => x.2.intersects first last) (s.ringInSequence o)).reverse).reverse
  rw [List.reverse_reverse] at outer
  exact outer.trans inner

/-- A ring in sequence order lists pages of the ring, each once. -/
theorem State.ringInSequence_subperm (s : State) (o : OutletId) : (s.ringInSequence o).Subperm (s.ringPages o) :=
  (s.inSequence_spec _).1.subperm.trans List.filter_sublist.subperm

theorem directoryWf_nodup {d : List (Nat × PageEntry)} (wf : directoryWf d = true) : (d.map Prod.fst).Nodup := by
  obtain ⟨rising, -⟩ := (directoryWf_iff d).mp wf
  exact List.Pairwise.map Prod.fst (fun _ _ h => Nat.ne_of_lt h) rising

/-- What a hold covers or a placement ranges over, as pages of the directory. -/
theorem State.pages_of_subperm {s : State} {o : OutletId} {xs : List (Nat × PageEntry)} (sub : xs.Subperm (s.ringPages o))
    (wf : directoryWf s.directory = true) : (xs.map Prod.fst).Nodup ∧ ∀ x ∈ xs, x ∈ s.ringPages o := by
  refine ⟨?_, fun x mem => sub.subset mem⟩
  have whole : xs.Subperm s.directory := sub.trans List.filter_sublist.subperm
  obtain ⟨ys, same, within⟩ := whole
  exact (same.map Prod.fst).nodup_iff.mp ((directoryWf_nodup wf).sublist (within.map Prod.fst))

theorem State.range_subperm (s : State) (o : OutletId) (first last : AirTime) :
    (trimRange (s.heldPages o) (s.budget o) (s.candidates o first last)).Subperm (s.ringPages o) :=
  ((trimRange_sublist _ _ _).trans (s.candidates_sublist o first last)).subperm.trans (s.ringInSequence_subperm o)

theorem State.covered_subperm (s : State) (h : Hold) : (s.covered h).Subperm (s.ringPages h.outlet) :=
  List.filter_sublist.subperm.trans (s.ringInSequence_subperm h.outlet)

/-! ### The entries of several pages changed (R114) -/

/-- The directory with the entries of some pages changed. -/
def changePages (f : PageEntry → PageEntry) (ps : List Nat) (d : List (Nat × PageEntry)) : List (Nat × PageEntry) :=
  ps.foldl (fun d p => setPage d p (f (pageAt d p))) d

theorem State.modPages_eq (s : State) (ps : List Nat) (f : PageEntry → PageEntry) :
    s.modPages ps f = { s with directory := changePages f ps s.directory } := by
  induction ps generalizing s with
  | nil => rfl
  | cons p ps ih => exact ih (s.modPage p f)

/-- Pages changed each once: theirs are the entries changed, and no other. -/
theorem pageAt_changePages (f : PageEntry → PageEntry) {ps : List Nat} (once : ps.Nodup) (d : List (Nat × PageEntry)) (n : Nat) :
    pageAt (changePages f ps d) n = if n ∈ ps then f (pageAt d n) else pageAt d n := by
  induction ps generalizing d with
  | nil => rfl
  | cons p ps ih =>
    obtain ⟨new, once⟩ := List.nodup_cons.mp once
    change pageAt (changePages f ps (setPage d p (f (pageAt d p)))) n = _
    rw [ih once, pageAt_setPage]
    by_cases here : n = p
    · subst here
      rw [if_neg new, if_pos rfl, if_pos (List.mem_cons_self ..)]
    · rw [if_neg here]
      exact if_congr (by rw [List.mem_cons, or_iff_right here]) rfl rfl

/-- A listed entry is the one looked up. -/
theorem pageAt_of_mem {d : List (Nat × PageEntry)} (wf : directoryWf d = true) {x : Nat × PageEntry} (mem : x ∈ d) :
    pageAt d x.1 = x.2 := by
  obtain ⟨rising, -⟩ := (directoryWf_iff d).mp wf
  have found : d.find? (fun e => e.1 == x.1) = some x := by
    induction d with
    | nil => exact absurd mem List.not_mem_nil
    | cons y ys ih =>
      obtain ⟨later, rising'⟩ := List.pairwise_cons.mp rising
      obtain rfl | inside := List.mem_cons.mp mem
      · exact List.find?_cons_of_pos (beq_self_eq_true _)
      · rw [List.find?_cons_of_neg (by rw [beq_iff_eq]; exact Nat.ne_of_lt (later x inside))]
        refine ih ((directoryWf_iff ys).mpr ⟨rising', fun z hz => ?_⟩) inside rising'
        exact ((directoryWf_iff _).mp wf).2 z (List.mem_cons_of_mem y hz)
  unfold pageAt
  rw [found]

/-- A listed page's entry changed, as a change of the listing. -/
def changed (f : PageEntry → PageEntry) (ps : List Nat) (x : Nat × PageEntry) : Nat × PageEntry :=
  if x.1 ∈ ps then (x.1, f x.2) else x

theorem changed_fst (f : PageEntry → PageEntry) (ps : List Nat) (x : Nat × PageEntry) : (changed f ps x).1 = x.1 := by
  unfold changed
  split <;> rfl

theorem setPage_of_mem {d : List (Nat × PageEntry)} (rising : d.Pairwise fun x y => x.1 < y.1) {p : Nat} {e : PageEntry}
    (mem : (p, e) ∈ d) {f : PageEntry → PageEntry} (kept : f e ≠ emptyPage) : setPage d p (f e) = d.map (changed f [p]) := by
  unfold setPage
  rw [if_neg kept]
  induction d with
  | nil => exact absurd mem List.not_mem_nil
  | cons y ys ih =>
    obtain ⟨later, rising⟩ := List.pairwise_cons.mp rising
    obtain rfl | inside := List.mem_cons.mp mem
    · have below : ys.filter (fun x => decide (x.1 < p)) = [] :=
        List.filter_eq_nil_iff.mpr fun x hx => by simpa using Nat.le_of_lt (later x hx)
      have above : ys.filter (fun x => decide (p < x.1)) = ys :=
        List.filter_eq_self.mpr fun x hx => by simpa using later x hx
      have same : ys.map (changed f [p]) = ys :=
        (List.map_congr_left fun x hx => if_neg (by simpa using Nat.ne_of_gt (later x hx))).trans (List.map_id ys)
      simp [below, above, same, changed]
    · have before : y.1 < p := later _ inside
      have other : changed f [p] y = y := if_neg (by simpa using Nat.ne_of_lt before)
      simp only [List.filter_cons, decide_eq_true before, if_true, List.map_cons, other, List.cons_append]
      rw [if_neg (by simpa using Nat.le_of_lt before), ih rising inside]

/-- Listed pages changed each once, as one change of the listing. -/
theorem changePages_eq_map {f : PageEntry → PageEntry} (kept : ∀ e, f e ≠ emptyPage) {ps : List Nat} (once : ps.Nodup)
    {d : List (Nat × PageEntry)} (wf : directoryWf d = true) (listed : ∀ p ∈ ps, ∃ e, (p, e) ∈ d) :
    changePages f ps d = d.map (changed f ps) := by
  induction ps generalizing d with
  | nil => exact ((List.map_congr_left fun x _ => if_neg List.not_mem_nil).trans (List.map_id d)).symm
  | cons p ps ih =>
    obtain ⟨new, once⟩ := List.nodup_cons.mp once
    obtain ⟨e, mem⟩ := listed p (List.mem_cons_self ..)
    have first : setPage d p (f (pageAt d p)) = d.map (changed f [p]) := by
      rw [pageAt_of_mem wf mem]
      exact setPage_of_mem ((directoryWf_iff d).mp wf).1 mem (kept e)
    have wf' : directoryWf (d.map (changed f [p])) = true := first ▸ directoryWf_setPage wf p _
    change changePages f ps (setPage d p (f (pageAt d p))) = _
    rw [first, ih once wf' fun q hq => ?_, List.map_map]
    · refine List.map_congr_left fun x _ => ?_
      unfold Function.comp changed
      by_cases here : x.1 = p
      · simp [here, new]
      · simp [here]
    · obtain ⟨b, hb⟩ := listed q (List.mem_cons_of_mem p hq)
      refine ⟨(changed f [p] (q, b)).2, List.mem_map.mpr ⟨(q, b), hb, Prod.ext (changed_fst f [p] (q, b)) rfl⟩⟩

/-! ### The budget (R138) -/

/-- A count over a list whose test also accepts some of its entries: those accepted anew are counted beside the others. -/
theorem countP_or {α : Type} (p q : α → Bool) (xs : List α) :
    xs.countP (fun x => p x || q x) = xs.countP p + xs.countP fun x => q x && !p x := by
  induction xs with
  | nil => rfl
  | cons x xs ih =>
    simp only [List.countP_cons, ih]
    cases p x <;> cases q x <;> simp <;> omega

/-- One more hold on each page of a range: the ring's held pages are those held before and those newly held. -/
theorem heldPages_changed {s t : State} {o : OutletId} (settings : t.settings = s.settings) {range : List (Nat × PageEntry)}
    (sub : range.Subperm (s.ringPages o)) (wf : directoryWf s.directory = true)
    (directory : t.directory = changePages (fun e => { e with holdCount := e.holdCount + 1 }) (range.map Prod.fst) s.directory) :
    t.heldPages o = s.heldPages o + newlyHeld range := by
  obtain ⟨once, listed⟩ := State.pages_of_subperm sub wf
  have inRing (x : Nat × PageEntry) (mem : x ∈ range) : x ∈ s.directory := (List.mem_filter.mp (listed x mem)).1
  have kept (e : PageEntry) : ({ e with holdCount := e.holdCount + 1 } : PageEntry) ≠ emptyPage := fun h =>
    Nat.succ_ne_zero _ (congrArg PageEntry.holdCount h :)
  have pages : t.ringPages o = (s.ringPages o).map
      (changed (fun e => { e with holdCount := e.holdCount + 1 }) (range.map Prod.fst)) := by
    unfold State.ringPages State.outletSettings
    rw [settings, directory, changePages_eq_map kept once wf, List.filter_map]
    · refine congrArg _ (List.filter_congr fun x _ => ?_)
      rw [Function.comp_apply, changed_fst]
    · intro p hp
      obtain ⟨x, mem, rfl⟩ := List.mem_map.mp hp
      exact ⟨x.2, inRing x mem⟩
  have raised : t.heldPages o =
      (s.ringPages o).countP fun x => decide (0 < x.2.holdCount) || decide (x.1 ∈ range.map Prod.fst) := by
    unfold State.heldPages
    rw [pages, List.countP_map]
    refine List.countP_congr fun x _ => ?_
    rw [Function.comp_apply]
    unfold changed
    by_cases held : x.1 ∈ range.map Prod.fst <;> simp [held]
  have same : ((s.ringPages o).filter fun x => decide (x.1 ∈ range.map Prod.fst)).Perm range := by
    have nodup : (s.ringPages o).Nodup := (List.Nodup.of_map _ (directoryWf_nodup wf)).filter _
    refine (List.perm_ext_iff_of_nodup (nodup.filter _) (List.Nodup.of_map _ once)).mpr fun x => ?_
    rw [List.mem_filter, decide_eq_true_iff]
    refine ⟨fun ⟨ring, page⟩ => ?_, fun mem => ⟨listed x mem, List.mem_map_of_mem mem⟩⟩
    obtain ⟨y, mem, eq⟩ := List.mem_map.mp page
    have entry : y.2 = x.2 := by
      rw [← pageAt_of_mem wf (inRing y mem), eq, pageAt_of_mem wf (List.mem_filter.mp ring).1]
    rwa [show x = y from Prod.ext eq.symm entry.symm]
  rw [raised, countP_or]
  refine congrArg (s.heldPages o + ·) ?_
  unfold newlyHeld
  rw [← same.countP_eq, List.countP_filter]
  refine List.countP_congr fun x _ => ?_
  by_cases held : 0 < x.2.holdCount
  · simp [held, Nat.ne_of_gt held]
  · simp [Nat.eq_zero_of_not_pos held]

/-! ### HOLD-PLACE (R139, R141) -/

theorem exec_holdPlace_of_serving {s : State} {r : Request} (serving : Serving s .compliance 13 r) :
    exec (.holdPlace .compliance) s = .next (placeHold .compliance r (s.takeRequest .compliance)).refresh :=
  serve_of_serving (placeHold .compliance) serving

theorem State.takeRequest_candidates (s : State) (l : Link) (o : OutletId) (a b : AirTime) :
    (s.takeRequest l).candidates o a b = s.candidates o a b := by
  unfold State.candidates
  rw [State.ringInSequence_congr (s := s) (t := s.takeRequest l) rfl rfl rfl]

/-- The range that a placement would hold. -/
def State.finalRange (s : State) (o : OutletId) (a b : AirTime) : List (Nat × PageEntry) :=
  trimRange (s.heldPages o) (s.budget o) (s.candidates o a b)

theorem State.takeRequest_finalRange (s : State) (l : Link) (o : OutletId) (a b : AirTime) :
    (s.takeRequest l).finalRange o a b = s.finalRange o a b := by
  unfold State.finalRange
  rw [State.takeRequest_candidates]
  rfl

theorem State.place_of_full {s : State} (full : 32 ≤ s.holds.length) (origin : HoldOrigin) (o : OutletId) (a b : AirTime) :
    s.place origin o a b = (s, .full) :=
  if_pos full

theorem State.place_of_empty {s : State} (room : s.holds.length < 32) {o : OutletId} {a b : AirTime} (none : s.finalRange o a b = [])
    (origin : HoldOrigin) : s.place origin o a b = (s, .empty) := by
  exact (if_neg (Nat.not_le.mpr room)).trans (if_pos (List.isEmpty_iff.mpr none))

theorem State.place_of_range {s : State} (room : s.holds.length < 32) {o : OutletId} {a b : AirTime}
    (some : s.finalRange o a b ≠ []) (origin : HoldOrigin) :
    let h := s.holdOver origin o a b (s.finalRange o a b) (decide ((s.finalRange o a b).length < (s.candidates o a b).length))
    s.place origin o a b = (s.enterHold h (s.finalRange o a b), .placed h) := by
  exact (if_neg (Nat.not_le.mpr room)).trans (if_neg fun empty => some (List.isEmpty_iff.mp empty))

/-- A placement that is made changes the directory, the table, the counter and the evidence. -/
theorem State.enterHold_eq (s : State) (h : Hold) (range : List (Nat × PageEntry)) :
    ∃ body : EvidenceBody, s.enterHold h range =
      { s with
        directory := changePages (fun e => { e with holdCount := e.holdCount + 1 }) (range.map Prod.fst) s.directory
        holds := s.holds ++ [h]
        holdCounter := h.id
        evidence := s.evidence.create { outlet := some h.outlet, stamp := s.time.air, body := body } } := by
  unfold State.enterHold
  rw [State.modPages_eq]
  exact ⟨_, rfl⟩

/-- The hold counts after one more hold on each page of a range. -/
theorem pageAt_raised {s : State} {o : OutletId} {range : List (Nat × PageEntry)} (sub : range.Subperm (s.ringPages o))
    (wf : directoryWf s.directory = true) (n : Nat) :
    pageAt (changePages (fun e => { e with holdCount := e.holdCount + 1 }) (range.map Prod.fst) s.directory) n =
      { pageAt s.directory n with
        holdCount := (pageAt s.directory n).holdCount + (if n ∈ range.map Prod.fst then 1 else 0) } := by
  rw [pageAt_changePages _ (State.pages_of_subperm sub wf).1]
  split <;> rfl

theorem State.answer_responses (s : State) (l : Link) (r : Request) (status : Status) (body : Body) :
    ((s.answer l r status body).refresh.link l).responses =
      (s.link l).responses ++ [{ tag := r.tag, code := r.code, status := status, body := body }] := by
  rw [State.refresh_link]
  exact congrArg LinkPort.responses (State.modLink_link s l _)

theorem State.takeRequest_responses (s : State) (l : Link) : ((s.takeRequest l).link l).responses = (s.link l).responses :=
  (congrArg LinkPort.responses (State.modLink_link s l _) :)

/-- Settles O43: a placement is decided in the order of R139, on the range trimmed to the budget. -/
theorem holdPlaced : Obligations.HoldPlaced := by
  unfold Obligations.HoldPlaced
  intro s r o a b serving fits range
  have executed := exec_holdPlace_of_serving serving
  have ranged : (s.takeRequest .compliance).finalRange o a b = range := s.takeRequest_finalRange .compliance o a b
  unfold placeHold at executed
  rw [fits] at executed
  dsimp only [withArgs] at executed
  refine ⟨fun full => ?_, fun room none => ?_, fun room some wf => ?_⟩
  · rw [executed, State.place_of_full (s := s.takeRequest .compliance) full]
    exact next_refresh_congr (State.takeRequest_answer ..)
  · rw [executed, State.place_of_empty (s := s.takeRequest .compliance) room (ranged.trans none)]
    exact next_refresh_congr (State.takeRequest_answer ..)
  · have placed := State.place_of_range (s := s.takeRequest .compliance) room (ranged ▸ some) .manual
    rw [ranged, State.takeRequest_candidates] at placed
    rw [placed] at executed
    dsimp only at executed placed
    generalize formed : (s.takeRequest .compliance).holdOver .manual o a b range
      (decide (range.length < (s.candidates o a b).length)) = h at executed placed
    obtain ⟨low, high, new⟩ := s.takeHoldId_spec room
    have sub : range.Subperm (s.ringPages o) := s.range_subperm o a b
    obtain ⟨body, entered⟩ := (s.takeRequest .compliance).enterHold_eq h range
    have identity : h.id = s.takeHoldId := by rw [← formed]; rfl
    refine ⟨_, h, executed, ?_⟩
    rw [entered]
    subst formed
    refine ⟨rfl, rfl, rfl, rfl, rfl, rfl, rfl, rfl, low, high, new, rfl, fun n => pageAt_raised sub wf n, ?_, ?_, rfl⟩
    · refine (Nat.le_of_eq (heldPages_changed (s := s) ?_ sub wf ?_)).trans (trimRange_within some)
      · rfl
      · rfl
    · refine (State.answer_responses ..).trans ?_
      rw [serving.2.2]
      exact congrArg (· ++ _) (s.takeRequest_responses .compliance)

/-! ### HOLD-RELEASE (R142) -/

theorem exec_holdRelease_of_serving {s : State} {r : Request} (serving : Serving s .compliance 14 r) :
    exec (.holdRelease .compliance) s = .next (releaseHold .compliance r (s.takeRequest .compliance)).refresh :=
  serve_of_serving (releaseHold .compliance) serving

theorem State.takeRequest_covered (s : State) (l : Link) (h : Hold) : (s.takeRequest l).covered h = s.covered h := by
  unfold State.covered
  rw [State.ringInSequence_congr (s := s) (t := s.takeRequest l) rfl rfl rfl]
  rfl

/-- A hold released changes the directory, the table and the evidence. -/
theorem State.releaseHold_eq (s : State) (h : Hold) (freed : Nat) :
    s.releaseHold h freed =
      { s with
        directory := changePages (fun e => { e with holdCount := e.holdCount - 1 }) ((s.covered h).map Prod.fst) s.directory
        holds := s.holds.filter fun x => x.id != h.id
        evidence := s.evidence.create { outlet := some h.outlet, stamp := s.time.air, body := .holdReleased h freed } } := by
  unfold State.releaseHold
  rw [State.modPages_eq]
  rfl

/-- Settles O44: the pages whose counts fall are those of the released hold's covered range. -/
theorem holdReleased : Obligations.HoldReleased := by
  unfold Obligations.HoldReleased
  intro s r id serving fits
  have executed := exec_holdRelease_of_serving serving
  unfold releaseHold at executed
  rw [fits] at executed
  dsimp only [withArgs] at executed
  constructor
  · intro absent
    have none : (s.takeRequest .compliance).holds.find? (fun h => h.id == id) = none :=
      List.find?_eq_none.mpr fun h mem same => absent h mem (eq_of_beq same)
    rw [executed, none]
    exact next_refresh_congr (State.takeRequest_answer ..)
  · intro h found wf pages freed
    have found' : (s.takeRequest .compliance).holds.find? (fun h => h.id == id) = some h := found
    have identity : h.id = id := eq_of_beq (List.find?_some (p := fun x : Hold => x.id == id) found)
    rw [found'] at executed
    dsimp only at executed
    rw [State.takeRequest_covered, State.releaseHold_eq, State.takeRequest_covered] at executed
    refine ⟨_, executed, ?_, fun n => ?_, rfl, ?_, rfl⟩
    · rw [← identity]
      rfl
    · have once : pages.Nodup := (State.pages_of_subperm (s.covered_subperm h) wf).1
      refine (pageAt_changePages (fun e => { e with holdCount := e.holdCount - 1 }) once s.directory n).trans ?_
      split <;> rfl
    · refine (State.answer_responses ..).trans ?_
      rw [serving.2.2]
      exact congrArg (· ++ _) (s.takeRequest_responses .compliance)

end Sys2Proof.Machine
end


section
/-! A page's fill or its close reported to the deferred read tables (R120, R122, R167), and the completions of record bursts. -/

namespace Sys2Proof.Machine

/-! ### Entries that a report completes (R167) -/

theorem completeDeferred_eq (l : Link) (page : Nat) (e : PageEntry) (closing : Bool) (s : State) (d : Deferred) :
    completeDeferred l page e closing s d =
      match deferredFetch page e.fill closing d with
      | some f => s.modLink l fun p => { p with fetches := p.fetches ++ [f] }
      | none => s.respond l d.tag 11 .short (.pageRead [] e.state e.fill) := by
  unfold completeDeferred deferredFetch
  split
  · rfl
  · split <;> rfl

/-- A port whose deferred reads a report completes, one after another: fetched, or answered SHORT where nothing lies below the
fill. -/
def LinkPort.reported (p : LinkPort) (page : Nat) (e : PageEntry) (closing : Bool) (ds : List Deferred) : LinkPort :=
  { p.answeredReads (ds.filter fun d => (deferredFetch page e.fill closing d).isNone) .short
      (fun _ => .pageRead [] e.state e.fill) with
    fetches := p.fetches ++ ds.filterMap (deferredFetch page e.fill closing) }

theorem LinkPort.reported_nil (p : LinkPort) (page : Nat) (e : PageEntry) (closing : Bool) : p.reported page e closing [] = p := by
  simp [LinkPort.reported, LinkPort.answeredReads]

theorem LinkPort.reported_cons_of_fetch {page : Nat} {e : PageEntry} {closing : Bool} {d : Deferred} {f : Fetch}
    (fetched : deferredFetch page e.fill closing d = some f) (p : LinkPort) (ds : List Deferred) :
    p.reported page e closing (d :: ds) = { p with fetches := p.fetches ++ [f] }.reported page e closing ds := by
  simp [LinkPort.reported, LinkPort.answeredReads, fetched]

theorem LinkPort.reported_cons_of_none {page : Nat} {e : PageEntry} {closing : Bool} {d : Deferred}
    (empty : deferredFetch page e.fill closing d = none) (p : LinkPort) (ds : List Deferred) :
    p.reported page e closing (d :: ds) = (p.respond d.tag 11 .short (.pageRead [] e.state e.fill)).reported page e closing ds := by
  simp [LinkPort.reported, LinkPort.answeredReads, LinkPort.respond, empty]

theorem foldl_completeDeferred (l : Link) (page : Nat) (e : PageEntry) (closing : Bool) (ds : List Deferred) (s : State) :
    ds.foldl (completeDeferred l page e closing) s = s.modLink l fun p => p.reported page e closing ds := by
  induction ds generalizing s with
  | nil => simp only [List.foldl_nil, LinkPort.reported_nil, State.modLink_self]
  | cons d ds ih =>
    rw [List.foldl_cons, ih, completeDeferred_eq]
    cases deferred : deferredFetch page e.fill closing d with
    | some f =>
      dsimp only
      rw [State.modLink_modLink]
      simp only [LinkPort.reported_cons_of_fetch deferred]
    | none =>
      dsimp only
      unfold State.respond
      rw [State.modLink_modLink]
      simp only [LinkPort.reported_cons_of_none deferred]

theorem reportTo_eq (l : Link) (o : OutletId) (page : Nat) (e : PageEntry) (closing : Bool) (s : State) :
    reportTo l o page e closing s =
      (s.modLink l fun p =>
        { p with deferred := p.deferred.filter fun d => !d.completes o e closing }.reported page e closing
          (s.shuffled ((s.link l).deferred.filter fun d => d.completes o e closing))).useFree 1 := by
  unfold reportTo
  dsimp only
  rw [foldl_completeDeferred, State.modLink_modLink]

theorem reportTo_link (l : Link) (o : OutletId) (page : Nat) (e : PageEntry) (closing : Bool) (s : State) :
    (reportTo l o page e closing s).link l =
      { s.link l with deferred := (s.link l).deferred.filter fun d => !d.completes o e closing }.reported page e closing
        (s.shuffled ((s.link l).deferred.filter fun d => d.completes o e closing)) := by
  rw [reportTo_eq]
  exact State.modLink_link s l _

theorem reportTo_link_of_ne {l m : Link} (h : m ≠ l) (o : OutletId) (page : Nat) (e : PageEntry) (closing : Bool) (s : State) :
    (reportTo l o page e closing s).link m = s.link m := by
  rw [reportTo_eq]
  exact State.modLink_link_of_ne s h _

theorem reportTo_frame (l : Link) (o : OutletId) (page : Nat) (e : PageEntry) (closing : Bool) (s : State) :
    { reportTo l o page e closing s with links := s.links, free := s.free } = s := by
  rw [reportTo_eq]
  rfl

/-- A report reaches each link's own table, in an order of its own, and nothing else. -/
theorem report_spec (o : OutletId) (page : Nat) (closing : Bool) (s : State) :
    let e := pageAt s.directory page
    (∀ l : Link, ∃ order : List Deferred, order.Perm ((s.link l).deferred.filter fun d => d.completes o e closing) ∧
      (report o page closing s).link l =
        { s.link l with deferred := (s.link l).deferred.filter fun d => !d.completes o e closing }.reported page e closing order) ∧
      { report o page closing s with links := s.links, free := s.free } = s := by
  intro e
  have frame := reportTo_frame .automation o page e closing s
  have own := reportTo_link .automation o page e closing s
  have other := reportTo_link_of_ne (l := .automation) (m := .compliance) (by decide) o page e closing s
  have eq : report o page closing s = reportTo .compliance o page e closing (reportTo .automation o page e closing s) := rfl
  rw [eq]
  generalize reportTo .automation o page e closing s = t at frame own other
  refine ⟨fun l => ?_, ?_⟩
  · cases l with
    | automation =>
      exact ⟨_, s.shuffled_perm _, (reportTo_link_of_ne (by decide) o page e closing t).trans own⟩
    | compliance =>
      rw [← other]
      exact ⟨_, t.shuffled_perm _, reportTo_link .compliance o page e closing t⟩
  · rw [← frame]
    exact congrArg (fun u : State => { u with links := s.links, free := s.free }) (reportTo_frame .compliance o page e closing t)

/-! ### Record bursts (R122) -/

theorem exec_recordBurstComplete_of_record {s : State} {o : OutletId} {n : Nat} {p : Placed} {r : FrameRecord}
    (burst : s.port = some (.record o n false)) (placed : (s.outlet o).writer.inProgress = some (p, r)) :
    exec .recordBurstComplete s =
      .next ((s.storeBurst p r n).modWriter o fun w =>
        { w with placed := some { p with written := p.written + n } }).freePort.refresh := by
  change execRecordBurstComplete s = _
  unfold execRecordBurstComplete
  rw [burst]
  dsimp only
  rw [placed]
  rfl

theorem exec_recordWriteComplete_of_record {s : State} {o : OutletId} {n : Nat} {p : Placed} {r : FrameRecord}
    (burst : s.port = some (.record o n true)) (placed : (s.outlet o).writer.inProgress = some (p, r)) :
    exec .recordWriteComplete s = .next ((s.storeBurst p r n).completeRecord o p r).freePort.refresh := by
  change execRecordWriteComplete s = _
  unfold execRecordWriteComplete
  rw [burst]
  dsimp only
  rw [placed]
  rfl

/-- The bytes a burst stores: the next part of its record. -/
theorem readByte_storeBurst (s : State) (p : Placed) (r : FrameRecord) (n a : Nat) :
    readByte (s.storeBurst p r n).memory a =
      if p.address ≤ a ∧ a < p.address + min n (r.bytes.length - p.written) then
        r.bytes.getD (p.written + (a - p.address)) 0
      else readByte s.memory a := by
  refine (readByte_writeBytes s.memory p.address a _).trans ?_
  rw [List.length_take, List.length_drop]
  by_cases inside : p.address ≤ a ∧ a < p.address + min n (r.bytes.length - p.written)
  · rw [if_pos inside, if_pos inside]
    have early : a - p.address < n := by omega
    rw [List.getD_eq_getElem?_getD, List.getD_eq_getElem?_getD, List.getElem?_take_of_lt early, List.getElem?_drop]
  · rw [if_neg inside, if_neg inside]

/-- A record's completion in its page's entry, in the words of its entry's fields. -/
theorem Deferred.completes_filled (d : Deferred) (o : OutletId) (e : PageEntry) (r : FrameRecord) :
    d.completes o (e.complete r) false =
      decide (d.outlet = o ∧ e.sequence = some d.sequence ∧ d.offset + d.length ≤ e.fill + r.bytes.length) := by
  rw [Bool.eq_iff_iff]
  simp only [Deferred.completes, PageEntry.complete, Bool.false_or, Bool.and_eq_true, beq_iff_eq, and_assoc, decide_eq_true_iff]
  exact and_congr Iff.rfl (and_congr Iff.rfl decide_eq_true_iff)

/-- Settles O37: bursts by the bytes they write, completions and closes by the report that each makes. -/
theorem recordBurstsStore : Obligations.RecordBurstsStore := by
  unfold Obligations.RecordBurstsStore
  refine ⟨fun s o n p r burst placed running => ?_, fun s o n p r burst placed running => ?_, fun s o page => ?_⟩
  · refine ⟨(s.storeBurst p r n).memory, ?_, readByte_storeBurst s p r n⟩
    rw [exec_recordBurstComplete_of_record burst placed]
    exact next_refresh_congr (State.freePort_of_running running)
  · intro stored e met
    have executed := exec_recordWriteComplete_of_record burst placed
    let noted : State := ((s.storeBurst p r n).modPage p.page fun e => e.complete r).modWriter o fun w =>
      { w with placed := none, fifo := w.fifo.tail }
    have entry : pageAt noted.directory p.page = e.complete r :=
      (State.pageAt_modPage (s.storeBurst p r n) p.page p.page fun e => e.complete r).trans (if_pos rfl)
    obtain ⟨tables, frame⟩ := report_spec o p.page false noted
    rw [entry] at tables
    have completed : (s.storeBurst p r n).completeRecord o p r = report o p.page false noted := rfl
    rw [completed] at executed
    generalize report o p.page false noted = t at executed tables frame
    have restarting : t.restarting = none := (congrArg State.restarting frame).trans running
    rw [State.freePort_of_running restarting] at executed
    have memory : t.memory = (s.storeBurst p r n).memory := (congrArg State.memory frame :)
    have directory : t.directory = noted.directory := (congrArg State.directory frame :)
    have outlets : t.outlets = noted.outlets := (congrArg State.outlets frame :)
    have outlet (q : OutletId) : t.outlet q = noted.outlet q := congrArg (fun v : Vector Outlet 8 => v[q]) outlets
    refine ⟨_, executed, fun a => ?_, ?_, fun page other => ?_, fun q other => ?_, ?_, rfl, fun l => ?_, ?_⟩
    · exact (congrArg (readByte · a) memory).trans (readByte_storeBurst s p r n a)
    · exact (congrArg (pageAt · p.page) directory).trans entry
    · refine (congrArg (pageAt · page) directory).trans ?_
      exact (State.pageAt_modPage (s.storeBurst p r n) p.page page fun e => e.complete r).trans (if_neg other)
    · exact (outlet q).trans (State.outlet_modOutlet_of_ne _ other _)
    · exact (outlet o).trans (State.outlet_modOutlet_same _ _ _)
    · obtain ⟨order, same, link⟩ := tables l
      have passes (d : Deferred) : d.completes o (e.complete r) false = met d := d.completes_filled o e r
      simp only [passes] at same link
      have fetches (d : Deferred) (mem : d ∈ order) : deferredFetch p.page (e.complete r).fill false d =
          some (.page d.tag d.outlet d.sequence p.page d.offset d.length false) := by
        have holds : met d = true := (List.mem_filter.mp (same.subset mem)).2
        exact if_pos (of_decide_eq_true holds).2.2
      have none : order.filter (fun d => (deferredFetch p.page (e.complete r).fill false d).isNone) = [] := by
        refine List.filter_eq_nil_iff.mpr fun d mem => ?_
        rw [fetches d mem]
        exact Bool.false_ne_true
      have all : order.filterMap (deferredFetch p.page (e.complete r).fill false) =
          order.map fun d => .page d.tag d.outlet d.sequence p.page d.offset d.length false := by
        rw [← List.filterMap_eq_map]
        exact List.filterMap_congr fetches
      refine ⟨order, same, ?_⟩
      refine (State.refresh_link _ l).trans ?_
      change ({ t.link l with attention := _ } : LinkPort) = _
      rw [link]
      simp only [LinkPort.reported, none, all, LinkPort.answeredReads_nil]
      rfl
    · exact congrArg (fun u : State =>
        { u with port := s.port, memory := s.memory, directory := s.directory, outlets := s.outlets, links := s.links, free := s.free }) frame
  · intro e met u
    obtain ⟨tables, frame⟩ := report_spec o page true s
    refine ⟨fun l => ?_, frame⟩
    obtain ⟨order, same, link⟩ := tables l
    have passes (d : Deferred) : d.completes o e true = met d := by
      rw [Bool.eq_iff_iff]
      simp [Deferred.completes, met]
    simp only [show pageAt s.directory page = e from rfl, passes] at same link
    exact ⟨order, same, link⟩

end Sys2Proof.Machine
end


section
/-! The Record Writers (R117 to R125, R133): the pages that a page advance chooses, and what a take does. -/

namespace Sys2Proof.Machine

/-! ### Choice 1 (R120) -/

theorem PageEntry.reusable_iff (e : PageEntry) :
    e.reusable = true ↔ e.state = .empty ∨ e.state = .released ∧ e.holdCount = 0 := by
  simp [PageEntry.reusable, PageEntry.inState_iff]

theorem PageEntry.discardable_iff (e : PageEntry) : e.discardable = true ↔ e.state = .closed ∧ e.holdCount = 0 := by
  simp [PageEntry.discardable, PageEntry.inState_iff]

/-- The search finds the first page it passes that may be taken. -/
theorem State.searchRing_eq_some (s : State) (first count n i q : Nat) :
    s.searchRing first count n i = some q ↔
      ∃ k : Nat, k < n ∧ q = first + (i + k) % count ∧ (pageAt s.directory q).reusable = true ∧
        ∀ j : Nat, j < k → (pageAt s.directory (first + (i + j) % count)).reusable = false := by
  induction n generalizing i with
  | zero => simp [State.searchRing]
  | succ n ih =>
    unfold State.searchRing
    by_cases here : (pageAt s.directory (first + i % count)).reusable = true
    · rw [if_pos here, Option.some_inj]
      constructor
      · rintro rfl
        exact ⟨0, Nat.succ_pos n, rfl, here, fun j impossible => absurd impossible (Nat.not_lt_zero j)⟩
      · rintro ⟨k, -, value, -, passed⟩
        cases k with
        | zero => exact value.symm
        | succ k => exact absurd (here.symm.trans (passed 0 (Nat.succ_pos k))) (by decide)
    · have away : (pageAt s.directory (first + i % count)).reusable = false := Bool.eq_false_of_not_eq_true here
      rw [if_neg here, ih (i + 1)]
      have shift (k : Nat) : i + 1 + k = i + (k + 1) := by omega
      constructor
      · rintro ⟨k, bound, value, free, passed⟩
        refine ⟨k + 1, Nat.succ_lt_succ bound, shift k ▸ value, free, fun j earlier => ?_⟩
        cases j with
        | zero => exact away
        | succ j => exact shift j ▸ passed j (Nat.lt_of_succ_lt_succ earlier)
      · rintro ⟨k, bound, value, free, passed⟩
        cases k with
        | zero => exact absurd (value ▸ free) here
        | succ k =>
          exact ⟨k, Nat.lt_of_succ_lt_succ bound, (shift k).symm ▸ value, free,
            fun j earlier => (shift j).symm ▸ passed (j + 1) (Nat.succ_lt_succ earlier)⟩

/-- Where choice 1 starts its search round the ring. -/
def State.searchStart (s : State) (o : OutletId) : Nat :=
  match (s.outlet o).writer.writePos with
  | some p => p + 1 - (s.outletSettings o).ringFirst
  | none => 0

theorem State.choiceOne_eq (s : State) (o : OutletId) :
    s.choiceOne o =
      if (s.outletSettings o).enabled = true then
        s.searchRing (s.outletSettings o).ringFirst (s.outletSettings o).ringCount (s.outletSettings o).ringCount (s.searchStart o)
      else none := by
  unfold State.choiceOne State.searchStart
  dsimp only
  by_cases enabled : (s.outletSettings o).enabled = true
  · rw [if_pos enabled, if_neg (by rw [enabled]; decide)]
    cases (s.outlet o).writer.writePos <;> rfl
  · rw [if_neg enabled, if_pos (by simpa using enabled)]

/-! ### Choice 2 (R120) -/

theorem State.mem_ringInSequence (s : State) (o : OutletId) (x : Nat × PageEntry) :
    x ∈ s.ringInSequence o ↔ x ∈ s.ringPages o ∧ x.2.state ≠ .empty ∧ x.2.sequence.isSome = true := by
  refine (s.inSequence_spec _).1.mem_iff.trans ?_
  rw [List.mem_filter]
  simp

/-- Choice 2 takes the oldest of the pages that may be discarded. -/
theorem State.choiceTwo_eq_some {s : State} {o : OutletId} {x : Nat × PageEntry} (chosen : s.choiceTwo o = some x) :
    (s.outletSettings o).policy = .overwrite ∧ x ∈ s.ringInSequence o ∧ x.2.discardable = true ∧
      ∀ y ∈ s.ringInSequence o, y.2.discardable = true → s.pageAge y ≤ s.pageAge x := by
  unfold State.choiceTwo at chosen
  split at chosen
  · rename_i overwrites
    obtain ⟨fits, front, back, split, passed⟩ := List.find?_eq_some_iff_append.mp chosen
    have ordered := (s.inSequence_spec ((s.ringPages o).filter fun x => x.2.state != .empty && x.2.sequence.isSome)).2
    change (s.ringInSequence o).Pairwise _ at ordered
    refine ⟨overwrites, by rw [split]; simp, fits, fun y mem fits' => ?_⟩
    rw [split] at mem ordered
    rcases List.mem_append.mp mem with before | after
    · exact absurd fits' (by simpa using passed y before)
    · rcases List.mem_cons.mp after with rfl | later
      · exact Nat.le_refl _
      · exact (List.pairwise_cons.mp (List.pairwise_append.mp ordered).2.1).1 y later
  · exact absurd chosen (by simp)

theorem State.choiceTwo_eq_none (s : State) (o : OutletId) :
    s.choiceTwo o = none ↔
      (s.outletSettings o).policy ≠ .overwrite ∨ ∀ x ∈ s.ringInSequence o, x.2.discardable = false := by
  unfold State.choiceTwo
  split
  · rename_i overwrites
    rw [List.find?_eq_none]
    simp [overwrites]
  · rename_i stops
    simp [stops]

/-! ### Takes (R119, R120, R133) -/

theorem State.nextItem_of_waiting {s : State} {o : OutletId} {i : FifoItem} {rest : List FifoItem} (power : s.powered = true)
    (idle : (s.outlet o).writer.placed = none) (running : (s.outlet o).writer.mode ≠ .suspended)
    (fifo : (s.outlet o).writer.fifo = i :: rest) : s.nextItem o = some i := by
  unfold State.nextItem
  have going : ((s.outlet o).writer.mode != .suspended) = true := by simpa using running
  simp only [power, idle, going, fifo]
  rfl

theorem exec_recordTake_of_record {s : State} {o : OutletId} {r : FrameRecord} (next : s.nextItem o = some (.record r)) :
    exec (.recordTake o) s = .next (s.placeRecord o r).refresh := by
  change execRecordTake o s = _
  unfold execRecordTake
  rw [next]
  rfl

theorem exec_recordTake_of_mark {s : State} {o : OutletId} (next : s.nextItem o = some .closeMark) :
    exec (.recordTake o) s = .next (s.reachMark o).refresh := by
  change execRecordTake o s = _
  unfold execRecordTake
  rw [next]
  rfl

theorem State.closePage_of_none {s : State} {o : OutletId} (h : s.openPage o = none) : s.closePage o = s := by
  unfold State.closePage
  rw [h]

theorem State.closePage_of_some {s : State} {o : OutletId} {n : Nat} {e : PageEntry} (h : s.openPage o = some (n, e)) :
    s.closePage o = report o n true (s.modPage n fun e => { e with state := .closed }) := by
  unfold State.closePage
  rw [h]

theorem State.placeRecord_of_none {s : State} {o : OutletId} (h : s.openPage o = none) (r : FrameRecord) :
    s.placeRecord o r = s.pageAdvance o r := by
  unfold State.placeRecord
  rw [h]

theorem State.placeRecord_of_fits {s : State} {o : OutletId} {n : Nat} {e : PageEntry} {r : FrameRecord}
    (h : s.openPage o = some (n, e)) (writing : (s.outlet o).writer.mode = .writing) (fits : e.fill + r.bytes.length ≤ pageSize) :
    s.placeRecord o r = s.modWriter o fun w => { w with placed := some { page := n, offset := e.fill, written := 0 } } := by
  unfold State.placeRecord
  rw [h]
  exact if_pos ⟨writing, fits⟩

theorem State.placeRecord_of_misfit {s : State} {o : OutletId} {n : Nat} {e : PageEntry} {r : FrameRecord}
    (h : s.openPage o = some (n, e)) (misfit : (s.outlet o).writer.mode ≠ .writing ∨ pageSize < e.fill + r.bytes.length) :
    s.placeRecord o r = s.pageAdvance o r := by
  unfold State.placeRecord
  rw [h]
  exact if_neg fun both => misfit.elim (· both.1) fun long => Nat.not_lt.mpr both.2 long

/-- The close of a page leaves the writers as they are, and the supply. -/
theorem closed_frame (s : State) (o p : OutletId) (n : Nat) :
    ((report o n true (s.modPage n fun e => { e with state := .closed })).outlet p = s.outlet p) ∧
      (report o n true (s.modPage n fun e => { e with state := .closed })).powered = s.powered := by
  obtain ⟨-, frame⟩ := report_spec o n true (s.modPage n fun e => { e with state := .closed })
  generalize report o n true (s.modPage n fun e => { e with state := .closed }) = t at frame ⊢
  exact ⟨(congrArg (fun u : State => u.outlet p) frame :), (congrArg State.powered frame :)⟩

theorem State.pageAdvance_of_free {s : State} {o : OutletId} (h : s.openPage o = none) {n : Nat} (free : s.choiceOne o = some n)
    (r : FrameRecord) : s.pageAdvance o r = s.openFor o n := by
  unfold State.pageAdvance
  rw [State.closePage_of_none h]
  dsimp only
  rw [free]

theorem State.pageAdvance_of_discard {s : State} {o : OutletId} (h : s.openPage o = none) (missed : s.choiceOne o = none)
    {x : Nat × PageEntry} (chosen : s.choiceTwo o = some x) (r : FrameRecord) :
    s.pageAdvance o r = (s.reportRecord o r.stamp (.pageLost x.1 x.2)).openFor o x.1 := by
  unfold State.pageAdvance
  rw [State.closePage_of_none h]
  dsimp only
  rw [missed, chosen]

theorem State.pageAdvance_of_stuck {s : State} {o : OutletId} (h : s.openPage o = none) (missed : s.choiceOne o = none)
    (stuck : s.choiceTwo o = none) (r : FrameRecord) : s.pageAdvance o r = s.suspend o r := by
  unfold State.pageAdvance
  rw [State.closePage_of_none h]
  dsimp only
  rw [missed, stuck]

/-- After a close that leaves no OPEN page, a page advance goes on as from the state closed. -/
theorem State.pageAdvance_closed {s t : State} {o : OutletId} (close : s.closePage o = t) (none : t.openPage o = none)
    (r : FrameRecord) : s.pageAdvance o r = t.pageAdvance o r := by
  unfold State.pageAdvance
  rw [close, State.closePage_of_none none]

/-! ### Suspension (R118, R124) -/

theorem State.modWriter_writer (s : State) (o : OutletId) (f : Writer → Writer) :
    ((s.modWriter o f).outlet o).writer = f (s.outlet o).writer :=
  congrArg Outlet.writer (State.outlet_modOutlet_same s o _)

theorem State.modWriter_outlet_of_ne (s : State) {o p : OutletId} (h : p ≠ o) (f : Writer → Writer) :
    (s.modWriter o f).outlet p = s.outlet p :=
  State.outlet_modOutlet_of_ne s h _

theorem State.raiseBoth_raises (s : State) (x : Flag) (l : Link) : ((s.raiseBoth x).link l).flags.has x = true := by
  cases l <;> cases x <;> rfl

theorem State.reportDrops_of_none {s : State} {o : OutletId} (none : (s.outlet o).writer.dropRun = none) (stamp : AirTime) :
    s.reportDrops o stamp = s := by
  unfold State.reportDrops
  rw [none]

theorem State.reportDrops_of_some {s : State} {o : OutletId} {run : DropRun} (open_ : (s.outlet o).writer.dropRun = some run)
    (stamp : AirTime) :
    s.reportDrops o stamp = (s.reportRecord o stamp (.frameDrop run)).modWriter o fun w => { w with dropRun := none } := by
  unfold State.reportDrops
  rw [open_]

/-- The record of an open drop run, if there is one. -/
def dropDrafts (o : OutletId) (stamp : AirTime) (run : Option DropRun) : List Draft :=
  match run with
  | some run => [{ outlet := some o, stamp := stamp, body := .frameDrop run }]
  | none => []

/-- What the report of a drop run changes. -/
theorem State.reportDrops_spec (s : State) (o : OutletId) (stamp : AirTime) :
    let u := s.reportDrops o stamp
    (u.outlet o).writer = { (s.outlet o).writer with dropRun := none } ∧
      u.evidence = (dropDrafts o stamp (s.outlet o).writer.dropRun).foldl Evidence.create s.evidence ∧
      (∀ p : OutletId, p ≠ o → u.outlet p = s.outlet p) ∧
      { u with outlets := s.outlets, evidence := s.evidence, links := s.links } = s := by
  cases open_ : (s.outlet o).writer.dropRun with
  | none =>
    rw [State.reportDrops_of_none open_]
    refine ⟨?_, rfl, fun _ _ => rfl, rfl⟩
    rw [← open_]
  | some run =>
    rw [State.reportDrops_of_some open_]
    exact ⟨State.modWriter_writer .., rfl, fun p other => State.modWriter_outlet_of_ne _ other _, rfl⟩

/-- A writer as it suspends: its FIFO is discarded into the suspension drop run. -/
def Writer.suspended (w : Writer) : Writer :=
  { w with mode := .suspended, suspendRun := dropItems w.fifo, fifo := [], placed := none }

/-- A suspension: the FIFO is discarded, and the drop run and the ring's counts are reported. -/
theorem State.suspend_spec (s : State) (o : OutletId) (r : FrameRecord) :
    let u := s.suspend o r
    (u.outlet o).writer =
        { mode := .suspended, fifo := [], placed := none, dropRun := none, suspendRun := dropItems (s.outlet o).writer.fifo,
          writePos := (s.outlet o).writer.writePos } ∧
      u.evidence = (dropDrafts o r.stamp (s.outlet o).writer.dropRun ++
        [{ outlet := some o, stamp := r.stamp, body := s.suspendBody o r.rfn : Draft }]).foldl Evidence.create s.evidence ∧
      (∀ p : OutletId, p ≠ o → u.outlet p = s.outlet p) ∧ (∀ l : Link, (u.link l).flags.record = true) ∧
      { u with outlets := s.outlets, evidence := s.evidence, links := s.links } = s := by
  intro u
  obtain ⟨writer, evidence, others, frame⟩ := s.reportDrops_spec o r.stamp
  have eq : u = ((s.reportDrops o r.stamp).modWriter o Writer.suspended).reportRecord o r.stamp
      ((s.reportDrops o r.stamp).suspendBody o r.rfn) := rfl
  rw [eq]
  generalize s.reportDrops o r.stamp = t at writer evidence others frame
  have body : t.suspendBody o r.rfn = s.suspendBody o r.rfn := (congrArg (fun u : State => u.suspendBody o r.rfn) frame :)
  refine ⟨?_, ?_, fun p other => ?_, fun l => State.raiseBoth_raises _ .record l, ?_⟩
  · refine (State.modWriter_writer t o Writer.suspended).trans ?_
    rw [writer]
    rfl
  · rw [List.foldl_append, ← evidence, ← body]
    rfl
  · exact (State.modWriter_outlet_of_ne t other Writer.suspended).trans (others p other)
  · exact frame

/-- Settles O36: the choices by the searches that make them, the takes by the item taken. -/
theorem recordTakePlaces : Obligations.RecordTakePlaces := by
  unfold Obligations.RecordTakePlaces
  refine ⟨fun s o => ?_, fun s o power idle running => ?_⟩
  · intro st start place free discardable age
    have discards (x : Nat × PageEntry) : discardable x ↔ x ∈ s.ringInSequence o ∧ x.2.discardable = true := by
      rw [State.mem_ringInSequence, PageEntry.discardable_iff]
      constructor
      · rintro ⟨ring, closed, unheld, sequenced⟩
        exact ⟨⟨ring, by rw [closed]; decide, sequenced⟩, closed, unheld⟩
      · rintro ⟨⟨ring, -, sequenced⟩, closed, unheld⟩
        exact ⟨ring, closed, unheld, sequenced⟩
    refine ⟨fun n => ?_, fun x chosen => ?_, ?_⟩
    · rw [State.choiceOne_eq]
      by_cases enabled : st.enabled = true
      · rw [if_pos enabled, State.searchRing_eq_some, and_iff_right enabled]
        refine exists_congr fun k => and_congr Iff.rfl (and_congr Iff.rfl (and_congr (PageEntry.reusable_iff _) ?_))
        refine forall_congr' fun j => imp_congr Iff.rfl ?_
        rw [Bool.eq_false_iff, ne_eq, PageEntry.reusable_iff]
        exact Iff.rfl
      · rw [if_neg enabled]
        exact ⟨fun h => absurd h (by simp), fun h => absurd h.1 enabled⟩
    · obtain ⟨overwrites, mem, fits, oldest⟩ := State.choiceTwo_eq_some chosen
      refine ⟨overwrites, (discards x).mpr ⟨mem, fits⟩, fun y hy => ?_⟩
      obtain ⟨mem', fits'⟩ := (discards y).mp hy
      exact oldest y mem' fits'
    · rw [State.choiceTwo_eq_none]
      refine or_congr Iff.rfl (forall_congr' fun x => ?_)
      rw [discards, not_and, Bool.not_eq_true]
  · intro put closed
    refine ⟨fun r rest fifo => ?_, fun rest fifo => ?_⟩
    · have next := State.nextItem_of_waiting power idle running fifo
      have executed := exec_recordTake_of_record next
      refine ⟨fun n e found writing fits => ?_, fun n e found misfit none => ?_, fun none => ⟨fun n first => ?_, fun missed =>
        ⟨fun n e second => ?_, fun stuck => ?_⟩⟩⟩
      · rw [executed, State.placeRecord_of_fits found writing fits]
      · have close : s.closePage o = closed n := State.closePage_of_some found
        obtain ⟨outlet, powered⟩ := closed_frame s o o n
        have next' : (closed n).nextItem o = some (.record r) :=
          State.nextItem_of_waiting (powered.trans power) ((congrArg (·.writer.placed) outlet).trans idle)
            (fun h => running ((congrArg (·.writer.mode) outlet).symm.trans h)) ((congrArg (·.writer.fifo) outlet).trans fifo)
        rw [executed, exec_recordTake_of_record next', State.placeRecord_of_misfit found misfit,
          State.placeRecord_of_none none, State.pageAdvance_closed close none]
      · rw [executed, State.placeRecord_of_none none, State.pageAdvance_of_free none first]
        refine next_refresh_congr ?_
        unfold State.openFor put State.modWriter
        rw [State.modOutlet_modOutlet]
        rfl
      · rw [executed, State.placeRecord_of_none none, State.pageAdvance_of_discard none missed second]
        rfl
      · rw [State.placeRecord_of_none none, State.pageAdvance_of_stuck none missed stuck] at executed
        obtain ⟨writer, evidence, others, flags, frame⟩ := s.suspend_spec o r
        refine ⟨_, executed, writer, ?_, others, fun l => ?_, frame⟩
        · exact evidence
        · rw [State.refresh_link]
          exact flags l
    · have next := State.nextItem_of_waiting power idle running fifo
      have executed := exec_recordTake_of_mark next
      have mark (t : State) (same : t.outlet o = s.outlet o) :
          (t.modWriter o fun w => { w with mode := .idle, fifo := w.fifo.tail }) =
            t.modWriter o fun w => { w with mode := .idle, fifo := rest } := by
        refine State.modOutlet_congr ?_
        have tail : (t.outlet o).writer.fifo.tail = rest := by rw [same, fifo]; rfl
        exact congrArg (fun fs => { t.outlet o with writer := { (t.outlet o).writer with mode := .idle, fifo := fs } }) tail
      refine ⟨fun none => ?_, fun n e found => ?_⟩
      · rw [executed, State.reachMark, State.closePage_of_none none, mark s rfl]
      · rw [executed, State.reachMark, State.closePage_of_some found]
        exact next_refresh_congr (mark _ (closed_frame s o o n).1)

end Sys2Proof.Machine
end


section
/-! The write FIFO (R117, R118, R124, R125): a frame record at its writer, and the record an arrival brings there. -/

namespace Sys2Proof.Machine

/-! ### Eligible pages (R125) -/

theorem State.searchRing_eq_none (s : State) (first count n i : Nat) :
    s.searchRing first count n i = none ↔
      ∀ k : Nat, k < n → (pageAt s.directory (first + (i + k) % count)).reusable = false := by
  induction n generalizing i with
  | zero => simp [State.searchRing]
  | succ n ih =>
    unfold State.searchRing
    by_cases here : (pageAt s.directory (first + i % count)).reusable = true
    · rw [if_pos here]
      exact ⟨fun h => absurd h (by simp), fun all => absurd (here.symm.trans (all 0 (Nat.succ_pos n))) (by decide)⟩
    · have shift (k : Nat) : i + 1 + k = i + (k + 1) := by omega
      rw [if_neg here, ih (i + 1)]
      refine ⟨fun all k bound => ?_, fun all k bound => (shift k).symm ▸ all (k + 1) (Nat.succ_lt_succ bound)⟩
      cases k with
      | zero => exact Bool.eq_false_of_not_eq_true here
      | succ k => exact shift k ▸ all k (Nat.lt_of_succ_lt_succ bound)

theorem OutletSettings.owns_iff (st : OutletSettings) (p : Nat) :
    st.owns p = true ↔ st.enabled = true ∧ st.ringFirst ≤ p ∧ p < st.ringFirst + st.ringCount := by
  simp [OutletSettings.owns, and_assoc]

/-- Choice 1 finds a page exactly where the ring has one that may be taken. -/
theorem State.choiceOne_isSome (s : State) (o : OutletId) :
    (s.choiceOne o).isSome = true ↔
      ∃ p : Nat, (s.outletSettings o).owns p = true ∧ (pageAt s.directory p).reusable = true := by
  rw [Option.isSome_iff_ne_none, State.choiceOne_eq]
  by_cases enabled : (s.outletSettings o).enabled = true
  · rw [if_pos enabled, ne_eq, State.searchRing_eq_none]
    constructor
    · intro found
      push Not at found
      obtain ⟨k, bound, free⟩ := found
      have below := Nat.mod_lt (s.searchStart o + k) (Nat.zero_lt_of_lt bound)
      exact ⟨_, (OutletSettings.owns_iff _ _).mpr ⟨enabled, Nat.le_add_right _ _, Nat.add_lt_add_left below _⟩,
        by simpa using free⟩
    · rintro ⟨p, owned, free⟩ none
      obtain ⟨-, low, high⟩ := (OutletSettings.owns_iff _ _).mp owned
      obtain ⟨k, bound, place⟩ := rotation_reaches (s.searchStart o) (Nat.sub_lt_left_of_lt_add low high)
      have here := none k bound
      rw [place, Nat.add_sub_cancel' low] at here
      exact absurd (free.symm.trans here) (by decide)
  · rw [if_neg enabled]
    exact ⟨fun h => absurd rfl h, fun ⟨p, owned, _⟩ => absurd ((OutletSettings.owns_iff _ _).mp owned).1 enabled⟩

theorem State.choiceTwo_isSome (s : State) (o : OutletId) :
    (s.choiceTwo o).isSome = true ↔
      (s.outletSettings o).policy = .overwrite ∧ ∃ x ∈ s.ringInSequence o, x.2.discardable = true := by
  rw [Option.isSome_iff_ne_none, ne_eq, State.choiceTwo_eq_none, not_or, not_not]
  refine and_congr Iff.rfl ?_
  push Not
  simp only [ne_eq, Bool.not_eq_false]

/-! ### A record at its writer (R117, R118) -/

theorem State.enterFifo_of_room {s : State} {o : OutletId} {r : FrameRecord}
    (room : occupancy (s.outlet o).writer.fifo + r.bytes.length ≤ fifoSize) :
    s.enterFifo o r = (s.reportDrops o r.stamp).modWriter o fun w => { w with fifo := w.fifo ++ [.record r] } :=
  if_pos room

theorem State.enterFifo_of_full {s : State} {o : OutletId} {r : FrameRecord}
    (full : fifoSize < occupancy (s.outlet o).writer.fifo + r.bytes.length) :
    s.enterFifo o r = s.modWriter o fun w => { w with dropRun := some (joinRun w.dropRun r.stamp r.rfn) } :=
  if_neg (Nat.not_le.mpr full)

theorem State.record_of_running {s : State} {o : OutletId} (running : (s.outlet o).writer.mode ≠ .suspended) (r : FrameRecord) :
    s.record o r = s.enterFifo o r :=
  if_neg running

theorem State.modWriter_modWriter (s : State) (o : OutletId) (f g : Writer → Writer) :
    (s.modWriter o f).modWriter o g = s.modWriter o fun w => g (f w) :=
  State.modOutlet_modOutlet s o _ _

theorem State.record_of_suspended {s : State} {o : OutletId} (suspended : (s.outlet o).writer.mode = .suspended) (r : FrameRecord) :
    s.record o r =
      if s.eligible o then (s.resume o r).enterFifo o r
      else s.modWriter o fun w => { w with suspendRun := some (joinRun w.suspendRun r.stamp r.rfn) } :=
  if_pos suspended

theorem State.resume_of_run {s : State} {o : OutletId} {run : DropRun} (open_ : (s.outlet o).writer.suspendRun = some run)
    (r : FrameRecord) :
    s.resume o r = (s.reportRecord o r.stamp (.recordResume run)).modWriter o fun w => { w with suspendRun := none, mode := .idle } := by
  unfold State.resume
  rw [open_]

/-! ### The record of an arrival (R14, R185) -/

/-- A frame leaves its outlet with a current segment. -/
theorem State.schedule_current (s : State) (o : OutletId) (first : Bool) (a : Arrival)
    (runs : first = false → (s.current o).isSome = true) : ((s.schedule o first a).current o).isSome = true := by
  have overran (t : State) (h : (t.current o).isSome = true) : ((t.testOverrun o a.stamp).current o).isSome = true := by
    obtain ⟨c, current⟩ := Option.isSome_iff_exists.mp h
    change ((t.testOverrun o a.stamp).outlet o).sched.current.isSome = true
    rw [State.testOverrun_sched current]
    rfl
  have followed (t : State) (h : (t.current o).isSome = true) : ((t.testFollow o).current o).isSome = true := by
    change ((t.testFollow o).outlet o).sched.current.isSome = true
    rw [(State.testFollow_arms t o).frame.1]
    exact h
  have entered (t : State) (m : Armed) : ((t.enterSegment o m a).current o).isSome = true := by
    obtain ⟨c, current, -⟩ := t.enterSegment_running o m a
    exact Option.isSome_iff_exists.mpr ⟨c, current⟩
  cases due : s.dueAt o a.stamp with
  | some m =>
    cases first with
    | true =>
      rw [State.schedule_of_armed due]
      exact overran _ (entered _ _)
    | false =>
      rw [State.schedule_of_boundary due]
      exact overran _ (entered _ _)
  | none =>
    cases first with
    | true =>
      rw [State.schedule_of_undeclared due]
      refine overran _ (followed _ ?_)
      obtain ⟨b, begun, -⟩ := s.begin_sched o s.undeclared false a
      exact Option.isSome_iff_exists.mpr ⟨_, congrArg Sched.current begun⟩
    | false =>
      rw [State.schedule_of_frame due]
      refine overran _ (followed _ ?_)
      have counted : (s.countFrame o a).current o = (s.current o).map fun c => c.count a := by
        unfold State.current State.countFrame
        rw [State.modSched_sched]
      rw [counted, Option.isSome_map]
      exact runs rfl

/-- The Scheduler leaves the writers as they are. -/
theorem State.takeFrame_writer (s : State) (o : OutletId) (f : Treated) :
    ((s.takeFrame o f).outlet o).writer = (s.outlet o).writer := by
  rw [State.takeFrame_eq, (Spreads.schedule (R := fun _ x => x ≠ .writer) _ nofun nofun nofun nofun _ _).writer (by simp),
    (Spreads.arrived s o f).writer (by simp)]

/-- The other consumers leave the Record Writer as it is. -/
theorem HandOff.consume_writer (h : HandOff) (s : State) {x : Consumer} (other : x ≠ .writer) :
    ((h.consume s x).outlet h.outlet).writer = (s.outlet h.outlet).writer := by
  cases x with
  | loudness => exact (Spreads.measure (R := fun _ x => x ≠ .writer) s nofun nofun _ _).writer (by simp)
  | subtitles => exact (Spreads.checkSubtitles (R := fun _ x => x ≠ .writer) s nofun nofun _ _ _).writer (by simp)
  | writer => exact absurd rfl other

theorem HandOff.consume_current (h : HandOff) (s : State) (x : Consumer) :
    (h.consume s x).current h.outlet = s.current h.outlet :=
  congrArg Sched.current ((Spreads.consume (R := fun _ x => x ≠ .sched) s h nofun nofun nofun nofun x).sched (by simp))

/-- The record that a hand-off brings to the writer of an outlet with a current segment. -/
def HandOff.record (h : HandOff) (segment : BitVec 32) : FrameRecord :=
  { bytes :=
      ({ outlet := h.frame.outlet, sequence := h.frame.sequence, rfn := h.arrival.rfn, stamp := h.arrival.stamp,
         segment := segment, flags := h.flags, layout := h.frame.layout, samples := h.frame.samples, units := h.frame.units,
         proxy := h.frame.proxy } : RecordContent).bytes
    stamp := h.arrival.stamp, rfn := h.arrival.rfn, flags := h.flags }

theorem HandOff.consume_of_writer {h : HandOff} {s : State} {c : Current} (current : s.current h.outlet = some c) :
    h.consume s .writer = s.record h.outlet (h.record c.decl.id) := by
  unfold HandOff.consume State.recordContent
  rw [current]
  rfl

theorem HandOff.record_length (h : HandOff) (i j : BitVec 32) : (h.record i).bytes.length = (h.record j).bytes.length := by
  unfold HandOff.record
  rw [RecordContent.length_bytes, RecordContent.length_bytes]
  rfl

/-- A running writer with room and no drop run takes the record of a frame, whatever the order of the consumers. -/
theorem State.arrive_writer {s : State} {o : OutletId} {f : Treated} {c : Current}
    (current : (s.takeFrame o f).current o = some c) (running : (s.outlet o).writer.mode ≠ .suspended)
    (none : (s.outlet o).writer.dropRun = none)
    (room : occupancy (s.outlet o).writer.fifo + ((s.handOff o f).record c.decl.id).bytes.length ≤ fifoSize) (n : Nat) :
    ((s.arrive o f (consumerOrder n)).outlet o).writer =
      { (s.outlet o).writer with fifo := (s.outlet o).writer.fifo ++ [.record ((s.handOff o f).record c.decl.id)] } := by
  let taken : Writer :=
    { (s.outlet o).writer with fifo := (s.outlet o).writer.fifo ++ [.record ((s.handOff o f).record c.decl.id)] }
  refine (foldl_once (f := (s.handOff o f).consume) (x := .writer)
    (P := fun u : State => u.current o = some c ∧ (u.outlet o).writer = (s.outlet o).writer)
    (Q := fun u : State => (u.outlet o).writer = taken) (consumerOrder_once n .writer) ?_ ?_ ?_
    ⟨current, s.takeFrame_writer o f⟩)
  · rintro u x other ⟨same, writer⟩
    exact ⟨((s.handOff o f).consume_current u x).trans same, ((s.handOff o f).consume_writer u other).trans writer⟩
  · rintro u ⟨same, writer⟩
    rw [HandOff.consume_of_writer (h := s.handOff o f) same, State.record_of_running (by rw [show (s.handOff o f).outlet = o from rfl, writer]; exact running)]
    rw [State.enterFifo_of_room (by rw [show (s.handOff o f).outlet = o from rfl, writer]; exact room),
      State.reportDrops_of_none (by rw [show (s.handOff o f).outlet = o from rfl, writer]; exact none)]
    refine (State.modWriter_writer u o _).trans ?_
    rw [writer]
  · intro u x other same
    exact ((s.handOff o f).consume_writer u other).trans same

/-- Settles O35: the rows of a record at its writer, and the one record that an arrival brings. -/
theorem writeFifoAtFrame : Obligations.WriteFifoAtFrame := by
  unfold Obligations.WriteFifoAtFrame
  refine ⟨fun s o r => ?_, fun s o bytes power on => ?_⟩
  · intro w used joined written
    have occupied : used = occupancy w.fifo :=
      congrArg (fun f => (w.fifo.map f).sum) (funext fun i => by cases i <;> rfl)
    have joins (run : Option DropRun) : joined run = joinRun run r.stamp r.rfn := by cases run <;> rfl
    refine ⟨fun running => ⟨fun room => ⟨fun none => ?_, fun run open_ => ?_⟩, fun full => ?_⟩, fun suspended =>
      ⟨fun stuck => ?_, fun run free open_ => ?_⟩, ?_⟩
    · rw [State.record_of_running running, State.enterFifo_of_room (occupied ▸ room), State.reportDrops_of_none none]
    · rw [State.record_of_running running, State.enterFifo_of_room (occupied ▸ room), State.reportDrops_of_some open_,
        State.modWriter_modWriter]
      rfl
    · rw [State.record_of_running running, State.enterFifo_of_full (occupied ▸ full)]
      simp only [joins]
    · rw [State.record_of_suspended suspended, stuck, if_neg Bool.false_ne_true]
      simp only [joins]
    · rw [State.record_of_suspended suspended, free, State.resume_of_run open_, if_pos rfl]
      refine (State.record_of_running ?_ r).symm
      rw [State.modWriter_writer]
      exact nofun
    · rw [State.eligible, Bool.or_eq_true, State.choiceOne_isSome, State.choiceTwo_isSome]
      refine or_congr (exists_congr fun p => and_congr Iff.rfl (PageEntry.reusable_iff _)) (and_congr Iff.rfl (exists_congr fun x => ?_))
      rw [State.mem_ringInSequence, PageEntry.discardable_iff]
      constructor
      · rintro ⟨⟨ring, -, sequenced⟩, closed, unheld⟩
        exact ⟨ring, closed, unheld, sequenced⟩
      · rintro ⟨ring, closed, unheld, sequenced⟩
        exact ⟨⟨ring, by rw [closed]; decide, sequenced⟩, closed, unheld⟩
  · intro f w i content running none room
    have active : (s.outlet o).intake.state ≠ .off := by
      obtain state | ⟨state | state, -⟩ := on <;> rw [state] <;> exact nofun
    have runs : ((s.outlet o).intake.state == .waiting) = false →
        (((s.useFree 1).arrived o f).current o).isSome = true := by
      intro later
      rw [State.current, State.arrived_sched]
      obtain waits | ⟨-, some⟩ := on
      · rw [waits] at later
        cases later
      · exact some
    have taken : (((s.useFree 1).takeFrame o f).current o).isSome = true :=
      State.schedule_current ((s.useFree 1).arrived o f) o _ _ runs
    obtain ⟨c, current⟩ := Option.isSome_iff_exists.mp taken
    refine ⟨_, c, exec_arrival_of_on power active bytes, ?_, ?_⟩
    · rw [State.current, State.refresh_outlet, State.arrive_sched]
      exact current
    · have fits : occupancy w.fifo + (((s.useFree 1).handOff o f).record c.decl.id).bytes.length ≤ fifoSize := by
        rw [HandOff.record_length _ c.decl.id 0]
        exact (Nat.le_of_eq (congrArg (occupancy w.fifo + ·) (RecordContent.length_bytes (content 0)))).trans room
      rw [State.refresh_outlet]
      exact State.arrive_writer current running none fits s.free

end Sys2Proof.Machine
end


section
/-! The size of a frame record (R116, R185): what an arrival hands on fits one page. -/

namespace Sys2Proof.Machine

theorem length_flatMap_le {α β : Type} {f : α → List β} {k : Nat} {xs : List α} (h : ∀ x ∈ xs, (f x).length ≤ k) :
    (xs.flatMap f).length ≤ xs.length * k := by
  induction xs with
  | nil => exact Nat.zero_le _
  | cons x xs ih =>
    have head := h x (List.mem_cons_self ..)
    have rest := ih fun y hy => h y (List.mem_cons_of_mem x hy)
    rw [List.flatMap_cons, List.length_append, List.length_cons, Nat.add_one_mul]
    omega

/-- What holds of everything an item can be read as holds of all the items read one after another. -/
theorem takeMany_forall {α : Type} {take : Bytes → Option (α × Bytes)} {P : α → Prop} {n : Nat} {bs : Bytes}
    {p : List α × Bytes} (h : takeMany take n bs = some p) (each : ∀ (cs : Bytes) (q : α × Bytes), take cs = some q → P q.1) :
    ∀ x ∈ p.1, P x := by
  induction n generalizing bs p with
  | zero =>
    cases h
    exact fun x impossible => absurd impossible List.not_mem_nil
  | succ n ih =>
    simp only [takeMany, Option.bind_eq_some_iff, Option.map_eq_some_iff] at h
    obtain ⟨q, first, r, rest, rfl⟩ := h
    intro x mem
    obtain rfl | later := List.mem_cons.mp mem
    · exact each _ _ first
    · exact ih rest x later

theorem channelsOf_le (layout : Layout) : channelsOf layout ≤ 6 := by
  cases layout <;> decide

/-- The text of a unit that is read has at most 96 bytes (R2). -/
theorem takeUnit_text {bs : Bytes} {p : SubUnit × Bytes} (h : takeUnit bs = some p) : p.1.text.length ≤ 96 := by
  simp only [takeUnit, Option.bind_eq_bind, Option.pure_def, Option.bind_eq_some_iff, Option.some.injEq] at h
  obtain ⟨service, -, kind, -, language, -, ⟨length, rest⟩, ranged, ⟨text, more⟩, taken, rfl⟩ := h
  have few : length ≤ 96 := by
    unfold takeRange at ranged
    obtain ⟨q, -, kept⟩ := Option.bind_eq_some_iff.mp ranged
    split at kept
    · rename_i within
      cases kept
      exact within.2
    · cases kept
  unfold takeBytes at taken
  split at taken
  · rename_i long
    cases taken
    exact (List.length_take_le _ _).trans few
  · cases taken

/-- A frame that is read: rows of at most six samples, and units of at most 96 bytes of text. -/
theorem readFrame_parts {bytes : Bytes} {f : AirFrame} (h : readFrame bytes = some f) :
    (∀ row ∈ f.samples, row.length ≤ 6) ∧ ∀ u ∈ f.units, u.text.length ≤ 96 := by
  simp only [readFrame, Option.bind_eq_bind, Option.bind_eq_some_iff] at h
  obtain ⟨⟨front, check⟩, -, h⟩ := h
  split at h
  · have taken := atEnd_eq_some h
    simp only [takeFrame, Option.bind_eq_bind, Option.pure_def, Option.bind_eq_some_iff, Option.some.injEq] at taken
    obtain ⟨outlet, -, sequence, -, code, -, count, -, samples, rows, unitCount, -, units, many, length, -, proxy, -, eq⟩ := taken
    have same := congrArg Prod.fst eq
    dsimp only at same
    subst same
    refine ⟨takeMany_forall rows fun cs q row => ?_, takeMany_forall many fun cs q unit => takeUnit_text unit⟩
    rw [takeMany_length row]
    exact channelsOf_le _
  · cases h

/-- What an arrival hands on is small: a frame's samples, four units and the proxy kept. -/
structure Treated.Small (f : Treated) : Prop where
  count : f.samples.length ≤ 1920
  rows : ∀ row ∈ f.samples, row.length ≤ 6
  units : f.units.length ≤ 4
  text : ∀ u ∈ f.units, u.text.length ≤ 96
  proxy : f.proxy.length ≤ 16384

theorem keptUnit_text (u : SubUnit) : (keptUnit u).text = u.text := by
  unfold keptUnit
  split <;> rfl

theorem normalised_length (layout : Layout) (samples : List (List Int)) : (normalised layout samples).length = 1920 := by
  unfold normalised frameSamples
  rw [List.length_append, List.length_take, List.length_replicate]
  omega

theorem normalised_rows {layout : Layout} {samples : List (List Int)} (h : ∀ row ∈ samples, row.length ≤ 6) :
    ∀ row ∈ normalised layout samples, row.length ≤ 6 := by
  intro row mem
  obtain kept | padded := List.mem_append.mp mem
  · exact h row (List.mem_of_mem_take kept)
  · rw [List.eq_of_mem_replicate padded, silence, List.length_replicate]
    exact channelsOf_le layout

theorem trustedFrame_samples (o : OutletId) (f : AirFrame) :
    (trustedFrame o f).samples = [] ∨ ∃ layout : Layout, (trustedFrame o f).samples = normalised layout f.samples := by
  unfold trustedFrame
  dsimp only
  split
  · exact .inl rfl
  · exact .inr ⟨_, rfl⟩

theorem treat_small (o : OutletId) (bytes : Bytes) : (treat o bytes).Small := by
  cases read : readFrame bytes with
  | none =>
    rw [treat_of_none read]
    exact ⟨Nat.zero_le _, fun _ impossible => absurd impossible List.not_mem_nil, Nat.zero_le _,
      fun _ impossible => absurd impossible List.not_mem_nil, Nat.zero_le _⟩
  | some f =>
    obtain ⟨rows, texts⟩ := readFrame_parts read
    rw [treat_of_some read]
    refine ⟨?_, ?_, ?_, fun u mem => ?_, List.length_take_le _ _⟩
    · obtain none | ⟨layout, audio⟩ := trustedFrame_samples o f
      · rw [none]
        exact Nat.zero_le _
      · rw [audio]
        exact Nat.le_of_eq (normalised_length layout _)
    · obtain none | ⟨layout, audio⟩ := trustedFrame_samples o f
      · rw [none]
        exact fun _ impossible => absurd impossible List.not_mem_nil
      · rw [audio]
        exact normalised_rows rows
    · change ((f.units.take 4).map keptUnit).length ≤ 4
      rw [List.length_map]
      exact List.length_take_le _ _
    · obtain ⟨v, kept, rfl⟩ := List.mem_map.mp mem
      rw [keptUnit_text]
      exact texts v (List.mem_of_mem_take kept)

/-- The record of what an arrival hands on fits one page (R112, R185). -/
theorem HandOff.record_fits {h : HandOff} (small : h.frame.Small) (segment : BitVec 32) : (h.record segment).bytes.length ≤ pageSize := by
  unfold HandOff.record
  rw [RecordContent.length_bytes]
  refine (Nat.le_of_lt (RecordContent.length_spec _).2.2).trans ?_
  have audio : (h.frame.samples.flatMap fun xs => xs.flatMap fun s => leSigned 2 (sample16 s)).length ≤ 1920 * (6 * 2) := by
    refine (length_flatMap_le fun row mem => ?_).trans (Nat.mul_le_mul_right _ small.count)
    refine (length_flatMap_le fun s _ => Nat.le_of_eq (length_leSigned 2 _)).trans ?_
    exact Nat.mul_le_mul_right _ (small.rows row mem)
  have units : (h.frame.units.flatMap unitBytes).length ≤ 4 * 104 := by
    refine (length_flatMap_le fun u mem => ?_).trans (Nat.mul_le_mul_right _ small.units)
    have text := small.text u mem
    simp only [unitBytes, List.length_append, List.length_cons, List.length_nil, length_byte, length_le]
    omega
  have proxy := small.proxy
  unfold RecordContent.parts
  rw [List.length_append, List.length_append]
  dsimp only
  unfold pageSize
  omega

end Sys2Proof.Machine
end


section
/-! Frame records stay in their pages, and evidence bursts in their region (R112, R119, R122, R152). -/

namespace Sys2Proof.Machine

/-! ### Writers in place -/

/-- A writer's records fit a page, and its placed record is the head of its FIFO and lies in a page of its outlet's ring (R119). -/
def Writer.InPlace (w : Writer) (st : OutletSettings) : Prop :=
  (∀ r : FrameRecord, FifoItem.record r ∈ w.fifo → r.bytes.length ≤ pageSize) ∧
    ∀ p : Placed, w.placed = some p →
      ∃ (r : FrameRecord) (rest : List FifoItem), w.fifo = .record r :: rest ∧ st.owns p.page = true ∧
        p.offset + r.bytes.length ≤ pageSize ∧ p.written ≤ r.bytes.length

/-- The burst in progress belongs to a placed record, or stays in the evidence region. -/
def PortInPlace (s : State) : Prop :=
  (∀ (o : OutletId) (n : Nat) (last : Bool), s.port = some (.record o n last) →
    ∃ (p : Placed) (r : FrameRecord), (s.outlet o).writer.inProgress = some (p, r) ∧ p.written + n ≤ r.bytes.length) ∧
    ∀ n : Nat, s.port = some (.evidence n) → s.loading = false ∧ s.slot s.evidence.head + n ≤ s.capacity

/-- During loading no writer holds anything. -/
def WritersRest (s : State) : Prop := s.loading = true → ∀ o : OutletId, (s.outlet o).writer.fifo = [] ∧ (s.outlet o).writer.placed = none

theorem recordsInPlace_iff (s : State) :
    RecordsInPlace s ↔
      (∀ o : OutletId, (s.outlet o).writer.InPlace (s.outletSettings o)) ∧ PortInPlace s ∧ WritersRest s := by
  constructor
  · rintro ⟨small, placed, record, evidence, rest⟩
    exact ⟨fun o => ⟨small o, placed o⟩, ⟨record, evidence⟩, rest⟩
  · rintro ⟨writers, ⟨record, evidence⟩, rest⟩
    exact ⟨fun o => (writers o).1, fun o => (writers o).2, record, evidence, rest⟩

theorem restWriter_inPlace (st : OutletSettings) : restWriter.InPlace st :=
  ⟨fun _ impossible => absurd impossible List.not_mem_nil, nofun⟩

/-- With the port free, the writers alone matter. -/
theorem RecordsInPlace.of_free {s : State} (free : s.port = none)
    (writers : ∀ o : OutletId, (s.outlet o).writer.InPlace (s.outletSettings o)) (rest : WritersRest s) : RecordsInPlace s :=
  (recordsInPlace_iff s).mpr ⟨writers, ⟨by simp [free], by simp [free]⟩, rest⟩

/-- What waits is small, and what stood at the head with a record placed is still there. -/
structure Writer.Queues (w v : Writer) : Prop where
  placed : v.placed = w.placed
  records : ∀ r : FrameRecord, FifoItem.record r ∈ v.fifo → FifoItem.record r ∈ w.fifo ∨ r.bytes.length ≤ pageSize
  head : ∀ (i : FifoItem) (rest : List FifoItem), w.fifo = i :: rest → ∃ more : List FifoItem, v.fifo = i :: more

theorem Writer.Queues.refl (w : Writer) : w.Queues w := ⟨rfl, fun _ mem => .inl mem, fun _ rest same => ⟨rest, same⟩⟩

theorem Writer.Queues.trans {u v w : Writer} (h : u.Queues v) (k : v.Queues w) : u.Queues w := by
  refine ⟨k.placed.trans h.placed, fun r mem => ?_, fun i rest same => ?_⟩
  · exact (k.records r mem).elim (h.records r) .inr
  · obtain ⟨more, next⟩ := h.head i rest same
    exact k.head i more next

theorem Writer.Queues.inPlace {w v : Writer} (h : w.Queues v) {st ts : OutletSettings} (k : w.InPlace st)
    (rings : ∀ p : Nat, st.owns p = true → ts.owns p = true) : v.InPlace ts := by
  refine ⟨fun r mem => (h.records r mem).elim (k.1 r) id, fun p placed => ?_⟩
  obtain ⟨r, rest, fifo, owned, fits, written⟩ := k.2 p (h.placed.symm.trans placed)
  obtain ⟨more, next⟩ := h.head _ _ fifo
  exact ⟨r, more, next, rings _ owned, fits, written⟩

theorem Writer.inProgress_of_placed {w : Writer} {p : Placed} {r : FrameRecord} {rest : List FifoItem} (placed : w.placed = some p)
    (fifo : w.fifo = .record r :: rest) : w.inProgress = some (p, r) := by
  unfold Writer.inProgress
  rw [placed, fifo]
  rfl

theorem Writer.inProgress_of_none {w : Writer} (placed : w.placed = none) : w.inProgress = none := by
  unfold Writer.inProgress
  rw [placed]

/-- A record in progress is the placed one at the FIFO's head. -/
theorem Writer.inProgress_eq_some {w : Writer} {p : Placed} {r : FrameRecord} (h : w.inProgress = some (p, r)) :
    w.placed = some p ∧ ∃ rest : List FifoItem, w.fifo = .record r :: rest := by
  unfold Writer.inProgress at h
  split at h
  · rename_i q x placed head
    cases h
    refine ⟨placed, ?_⟩
    unfold headRecord at head
    split at head
    · rename_i y rest fifo
      cases head
      exact ⟨rest, fifo⟩
    · cases head
  · cases h

theorem Writer.Queues.inProgress {w v : Writer} (h : w.Queues v) {p : Placed} {r : FrameRecord} (k : w.inProgress = some (p, r)) :
    v.inProgress = some (p, r) := by
  obtain ⟨placed, rest, fifo⟩ := Writer.inProgress_eq_some k
  obtain ⟨more, next⟩ := h.head _ _ fifo
  exact Writer.inProgress_of_placed (h.placed.trans placed) next

/-- Where rings, region and the burst that writes stay, and every writer only queues, the records stay in place. -/
theorem RecordsInPlace.follow {s t : State} (h : RecordsInPlace s)
    (rings : ∀ (o : OutletId) (p : Nat), (s.outletSettings o).owns p = true → (t.outletSettings o).owns p = true)
    (capacity : t.capacity = s.capacity) (head : t.evidence.head = s.evidence.head) (loading : t.loading = s.loading)
    (port : ∀ b : Burst, t.port = some b → b.writes → s.port = some b)
    (writers : ∀ o : OutletId, (s.outlet o).writer.Queues (t.outlet o).writer)
    (rest : s.loading = true → ∀ o : OutletId, (t.outlet o).writer = (s.outlet o).writer) : RecordsInPlace t := by
  obtain ⟨places, ⟨record, evidence⟩, resting⟩ := (recordsInPlace_iff s).mp h
  refine (recordsInPlace_iff t).mpr ⟨fun o => (writers o).inPlace (places o) (rings o), ⟨fun o n last busy => ?_, fun n busy => ?_⟩,
    fun loads o => ?_⟩
  · obtain ⟨p, r, progress, within⟩ := record o n last (port _ busy trivial)
    exact ⟨p, r, (writers o).inProgress progress, within⟩
  · obtain ⟨loaded, within⟩ := evidence n (port _ busy trivial)
    refine ⟨loading.trans loaded, ?_⟩
    unfold State.slot at within ⊢
    rw [capacity, head]
    exact within
  · rw [loading] at loads
    rw [rest loads o]
    exact resting loads o

theorem Keeps.capacity {R : OutletId → Part → Prop} {s t : State} (k : Keeps R s t) : t.capacity = s.capacity := by
  unfold State.capacity
  rw [k.settings]

theorem Keeps.outletSettings {R : OutletId → Part → Prop} {s t : State} (k : Keeps R s t) (o : OutletId) :
    t.outletSettings o = s.outletSettings o := by
  unfold State.outletSettings
  rw [k.settings]

/-- A command that keeps the rest and lets the writers only queue keeps the records in place. -/
theorem RecordsInPlace.of_keeps {R : OutletId → Part → Prop} {s t : State} (h : RecordsInPlace s) (k : Keeps R s t)
    (writers : ∀ o : OutletId, (s.outlet o).writer.Queues (t.outlet o).writer)
    (rest : s.loading = true → ∀ o : OutletId, (t.outlet o).writer = (s.outlet o).writer) : RecordsInPlace t :=
  h.follow (fun o p owned => by rw [k.outletSettings]; exact owned) k.capacity k.head k.loading k.port writers rest

/-- One writer with no record in progress may have changed as it pleases, in place. -/
theorem RecordsInPlace.of_own {R : OutletId → Part → Prop} {s t : State} (h : RecordsInPlace s) (k : Keeps R s t) {o : OutletId}
    (loaded : s.loading = false) (idle : (s.outlet o).writer.placed = none)
    (others : ∀ p : OutletId, p ≠ o → (t.outlet p).writer = (s.outlet p).writer)
    (own : (t.outlet o).writer.InPlace (s.outletSettings o)) : RecordsInPlace t := by
  obtain ⟨places, ⟨record, evidence⟩, resting⟩ := (recordsInPlace_iff s).mp h
  refine (recordsInPlace_iff t).mpr ⟨fun p => ?_, ⟨fun p n last busy => ?_, fun n busy => ?_⟩, fun loads => ?_⟩
  · rw [k.outletSettings]
    by_cases here : p = o
    · rw [here]
      exact own
    · rw [others p here]
      exact places p
  · obtain ⟨q, r, progress, within⟩ := record p n last (k.port _ busy trivial)
    have other : p ≠ o := by
      rintro rfl
      rw [Writer.inProgress_of_none idle] at progress
      cases progress
    rw [others p other]
    exact ⟨q, r, progress, within⟩
  · obtain ⟨-, within⟩ := evidence n (k.port _ busy trivial)
    refine ⟨k.loading.trans loaded, ?_⟩
    unfold State.slot at within ⊢
    rw [k.capacity, k.head]
    exact within
  · rw [k.loading, loaded] at loads
    cases loads

/-! ### A frame record at its writer (R117, R118, R125) -/

theorem Writer.Queues.of_same {w v : Writer} (placed : v.placed = w.placed) (fifo : v.fifo = w.fifo) : w.Queues v :=
  ⟨placed, fun _ mem => .inl (fifo ▸ mem), fun _ rest same => ⟨rest, fifo.trans same⟩⟩

theorem Writer.Queues.append (w : Writer) {i : FifoItem} (small : ∀ r : FrameRecord, i = .record r → r.bytes.length ≤ pageSize) :
    w.Queues { w with fifo := w.fifo ++ [i] } := by
  refine ⟨rfl, fun r mem => ?_, fun j rest same => ⟨rest ++ [i], by rw [same]; rfl⟩⟩
  exact (List.mem_append.mp mem).imp id fun last => small r (List.mem_singleton.mp last).symm

theorem State.enterFifo_queues (s : State) (o : OutletId) {r : FrameRecord} (small : r.bytes.length ≤ pageSize) :
    (s.outlet o).writer.Queues ((s.enterFifo o r).outlet o).writer := by
  by_cases room : occupancy (s.outlet o).writer.fifo + r.bytes.length ≤ fifoSize
  · rw [State.enterFifo_of_room room, State.modWriter_writer, (s.reportDrops_spec o r.stamp).1]
    have dropped : (s.outlet o).writer.Queues { (s.outlet o).writer with dropRun := none } := .of_same rfl rfl
    exact dropped.trans (.append (i := .record r) _ fun x same => by cases same; exact small)
  · rw [State.enterFifo_of_full (Nat.not_le.mp room), State.modWriter_writer]
    exact .of_same rfl rfl

theorem State.resume_queues (s : State) (o : OutletId) (r : FrameRecord) :
    (s.outlet o).writer.Queues ((s.resume o r).outlet o).writer := by
  unfold State.resume
  dsimp only
  rw [State.modWriter_writer]
  split <;> exact .of_same rfl rfl

theorem State.record_queues (s : State) (o : OutletId) {r : FrameRecord} (small : r.bytes.length ≤ pageSize) :
    (s.outlet o).writer.Queues ((s.record o r).outlet o).writer := by
  by_cases suspended : (s.outlet o).writer.mode = .suspended
  · rw [State.record_of_suspended suspended]
    split
    · exact (s.resume_queues o r).trans (State.enterFifo_queues _ o small)
    · rw [State.modWriter_writer]
      exact .of_same rfl rfl
  · rw [State.record_of_running suspended]
    exact s.enterFifo_queues o small

/-- The consumers of a frame let its outlet's writer queue. -/
theorem HandOff.consume_queues {h : HandOff} (small : h.frame.Small) (s : State) (x : Consumer) :
    (s.outlet h.outlet).writer.Queues ((h.consume s x).outlet h.outlet).writer := by
  by_cases writes : x = .writer
  · rw [writes]
    exact s.record_queues h.outlet (h.record_fits small _)
  · rw [h.consume_writer s writes]
    exact .refl _

theorem State.arrive_queues (s : State) (o : OutletId) {f : Treated} (small : f.Small) (order : List Consumer) :
    (s.outlet o).writer.Queues ((s.arrive o f order).outlet o).writer := by
  unfold State.arrive
  have taken := s.takeFrame_writer o f
  generalize s.takeFrame o f = u at taken
  rw [← taken]
  clear taken
  induction order generalizing u with
  | nil => exact .refl _
  | cons x xs ih =>
    exact (HandOff.consume_queues (h := s.handOff o f) small u x).trans (ih _)

/-- An arrival keeps the records in place. -/
theorem RecordsInPlace.arrival {s t : State} (laws : OutletLaws s) (h : RecordsInPlace s) {o : OutletId} {bytes : Bytes}
    (taken : exec (.airFrameArrival o bytes) s = .next t) (k : Keeps (Instr.reach (.airFrameArrival o bytes)) s t) :
    RecordsInPlace t := by
  obtain same | ⟨on, same⟩ := exec_arrival_cases taken
  · rw [same]
    exact h
  · refine h.of_keeps k (fun p => ?_) fun loads => absurd (laws.2.2.1 (.inl loads) o) on
    by_cases here : p = o
    · rw [same, here, State.refresh_outlet]
      exact State.arrive_queues (s.useFree 1) o (treat_small o bytes) _
    · rw [show (t.outlet p).writer = (s.outlet p).writer from k.outlets p .writer here]
      exact .refl _

/-! ### Takes (R119, R120, R124, R133) -/

theorem State.owns_of_mem {s : State} {o : OutletId} {x : Nat × PageEntry} (mem : x ∈ s.ringPages o) :
    (s.outletSettings o).owns x.1 = true :=
  (List.mem_filter.mp mem).2

theorem State.owns_of_openPage {s : State} {o : OutletId} {x : Nat × PageEntry} (found : s.openPage o = some x) :
    (s.outletSettings o).owns x.1 = true :=
  State.owns_of_mem (List.mem_of_find?_eq_some found)

theorem State.owns_of_choiceTwo {s : State} {o : OutletId} {x : Nat × PageEntry} (chosen : s.choiceTwo o = some x) :
    (s.outletSettings o).owns x.1 = true :=
  State.owns_of_mem ((s.mem_ringInSequence o x).mp (State.choiceTwo_eq_some chosen).2.1).1

theorem State.owns_of_choiceOne {s : State} {o : OutletId} {n : Nat} (chosen : s.choiceOne o = some n) :
    (s.outletSettings o).owns n = true := by
  rw [State.choiceOne_eq] at chosen
  split at chosen
  · rename_i enabled
    obtain ⟨k, bound, place, -, -⟩ := (s.searchRing_eq_some _ _ _ _ _).mp chosen
    have below := Nat.mod_lt (s.searchStart o + k) (Nat.zero_lt_of_lt bound)
    exact (OutletSettings.owns_iff _ _).mpr ⟨enabled, by omega, by omega⟩
  · cases chosen

/-- A writer whose oldest record has just been placed. -/
theorem Writer.InPlace.place {w v : Writer} {st : OutletSettings} (h : w.InPlace st) {r : FrameRecord} {rest : List FifoItem}
    (fifo : w.fifo = .record r :: rest) {n offset : Nat} (owned : st.owns n = true) (fits : offset + r.bytes.length ≤ pageSize)
    (placed : v.placed = some { page := n, offset := offset, written := 0 }) (same : v.fifo = w.fifo) : v.InPlace st := by
  refine ⟨fun x mem => h.1 x (same ▸ mem), fun p hp => ?_⟩
  cases placed.symm.trans hp
  exact ⟨r, rest, same.trans fifo, owned, fits, Nat.zero_le _⟩

theorem State.openFor_writer (s : State) (o : OutletId) (n : Nat) :
    ((s.openFor o n).outlet o).writer =
      { (s.outlet o).writer with
        mode := .writing, writePos := some n, placed := some { page := n, offset := 0, written := 0 } } :=
  State.modWriter_writer _ _ _

theorem State.closePage_writer (s : State) (o p : OutletId) : ((s.closePage o).outlet p).writer = (s.outlet p).writer :=
  (Keeps.closePage (R := fun _ _ => False) s o).outlets p .writer id

theorem State.pageAdvance_inPlace {s : State} {o : OutletId} {r : FrameRecord} {rest : List FifoItem}
    (h : (s.outlet o).writer.InPlace (s.outletSettings o)) (fifo : (s.outlet o).writer.fifo = .record r :: rest) :
    ((s.pageAdvance o r).outlet o).writer.InPlace (s.outletSettings o) := by
  have small : 0 + r.bytes.length ≤ pageSize := by
    rw [Nat.zero_add]
    exact h.1 r (by rw [fifo]; exact List.mem_cons_self ..)
  have settings := (Keeps.closePage (R := fun _ _ => False) s o).outletSettings o
  have writer := s.closePage_writer o o
  unfold State.pageAdvance
  dsimp only
  generalize s.closePage o = t at settings writer
  rw [← settings] at h ⊢
  rw [← writer] at h fifo
  split
  · rename_i n chosen
    rw [State.openFor_writer]
    exact h.place fifo (State.owns_of_choiceOne chosen) small rfl rfl
  · split
    · rename_i x chosen
      rw [State.openFor_writer]
      exact h.place fifo (State.owns_of_choiceTwo chosen) small rfl rfl
    · rw [(t.suspend_spec o r).1]
      exact ⟨fun _ impossible => absurd impossible List.not_mem_nil, nofun⟩

theorem State.placeRecord_inPlace {s : State} {o : OutletId} {r : FrameRecord} {rest : List FifoItem}
    (h : (s.outlet o).writer.InPlace (s.outletSettings o)) (fifo : (s.outlet o).writer.fifo = .record r :: rest) :
    ((s.placeRecord o r).outlet o).writer.InPlace (s.outletSettings o) := by
  unfold State.placeRecord
  split
  · rename_i x found
    split
    · rename_i fits
      rw [State.modWriter_writer]
      exact h.place fifo (State.owns_of_openPage found) fits.2 rfl rfl
    · exact State.pageAdvance_inPlace h fifo
  · exact State.pageAdvance_inPlace h fifo

theorem State.reachMark_inPlace {s : State} {o : OutletId} {st : OutletSettings} (h : (s.outlet o).writer.InPlace st)
    (idle : (s.outlet o).writer.placed = none) : ((s.reachMark o).outlet o).writer.InPlace st := by
  unfold State.reachMark
  rw [State.modWriter_writer, State.closePage_writer]
  exact ⟨fun r mem => h.1 r (List.mem_of_mem_tail mem), fun p placed => by rw [idle] at placed; cases placed⟩

theorem State.nextItem_eq_some {s : State} {o : OutletId} {i : FifoItem} (h : s.nextItem o = some i) :
    (s.outlet o).writer.placed = none ∧ ∃ rest : List FifoItem, (s.outlet o).writer.fifo = i :: rest := by
  unfold State.nextItem at h
  dsimp only at h
  split at h
  · rename_i ready
    simp only [Bool.and_eq_true, Option.isNone_iff_eq_none] at ready
    exact ⟨ready.1.2, _, (List.cons_head?_tail h).symm⟩
  · cases h

/-- A take keeps the records in place. -/
theorem RecordsInPlace.take {s t : State} (h : RecordsInPlace s) {o : OutletId} (taken : exec (.recordTake o) s = .next t)
    (k : Keeps (Instr.reach (.recordTake o)) s t) : RecordsInPlace t := by
  have places := ((recordsInPlace_iff s).mp h).1 o
  have others (p : OutletId) (other : p ≠ o) : (t.outlet p).writer = (s.outlet p).writer :=
    k.outlets p .writer fun r => other r.1
  cases next : s.nextItem o with
  | none =>
    change execRecordTake o s = .next t at taken
    unfold execRecordTake at taken
    rw [next] at taken
    cases taken
    exact h
  | some i =>
    obtain ⟨idle, rest, fifo⟩ := State.nextItem_eq_some next
    have loaded : s.loading = false := by
      refine Bool.eq_false_of_not_eq_true fun loads => ?_
      have empty := (((recordsInPlace_iff s).mp h).2.2 loads o).1
      rw [fifo] at empty
      cases empty
    cases i with
    | record r =>
      rw [exec_recordTake_of_record next] at taken
      cases taken
      exact h.of_own k loaded idle others (State.placeRecord_inPlace places fifo)
    | closeMark =>
      rw [exec_recordTake_of_mark next] at taken
      cases taken
      exact h.of_own k loaded idle others (State.reachMark_inPlace places idle)

/-! ### Restarts (R133, R134, R181) -/

theorem State.modWriter_queues {s : State} {o : OutletId} {f : Writer → Writer}
    (h : (s.outlet o).writer.Queues (f (s.outlet o).writer)) (p : OutletId) :
    (s.outlet p).writer.Queues ((s.modWriter o f).outlet p).writer := by
  by_cases here : p = o
  · rw [here, State.modWriter_writer]
    exact h
  · rw [State.modWriter_outlet_of_ne s here]
    exact .refl _

/-- A close mark lets the writers queue. -/
theorem State.markWriter_queues (s : State) (o p : OutletId) :
    (s.outlet p).writer.Queues ((s.markWriter o).outlet p).writer := by
  have marked : (s.outlet o).writer.Queues { (s.outlet o).writer with fifo := (s.outlet o).writer.fifo ++ [.closeMark] } :=
    .append _ nofun
  unfold State.markWriter
  dsimp only
  split
  · split
    · rename_i empty
      unfold State.reachMark
      by_cases here : p = o
      · have none : (s.outlet o).writer.fifo = [] := List.isEmpty_iff.mp empty
        rw [here, State.modWriter_writer, State.closePage_writer, State.modWriter_writer]
        refine .of_same rfl ?_
        rw [none]
        rfl
      · rw [State.modWriter_outlet_of_ne _ here, State.closePage_writer, State.modWriter_outlet_of_ne _ here]
        exact .refl _
    · exact State.modWriter_queues marked p
  · split
    · exact State.modWriter_queues marked p
    · exact .refl _
  · exact .refl _

theorem State.keepRecords_queues (s : State) (o : OutletId) :
    (s.outlet o).writer.Queues ((s.keepRecords).outlet o).writer := by
  have each (os : List OutletId) (u : State) :
      (u.outlet o).writer.Queues ((os.foldl (fun v p => v.markWriter p) u).outlet o).writer := by
    induction os generalizing u with
    | nil => exact .refl _
    | cons p os ih => exact (u.markWriter_queues p o).trans (ih _)
  exact each allOutlets s

/-- What the rest of a restart leaves of the port and of the evidence ring's head. -/
theorem State.finishRestart_port (s : State) (p : RestartProgress) (cleared : Bool) :
    (s.finishRestart p cleared).port = ((s.applyReload p.reload).restartRecords cleared).port ∧
      (s.finishRestart p cleared).evidence.head = ((s.applyReload p.reload).restartRecords cleared).evidence.head := by
  rw [State.finishRestart_eq]
  have answered (u : State) (q : BitVec 32) :
      (u.answerRestart p cleared q).port = u.port ∧ (u.answerRestart p cleared q).evidence = u.evidence := by
    unfold State.answerRestart
    split <;> exact ⟨rfl, rfl⟩
  refine ⟨(answered _ _).1.trans ?_, (congrArg Evidence.head (answered _ _).2).trans ?_⟩
  · unfold State.restartWritten
    generalize (s.applyReload p.reload).restartRecords cleared = u
    rfl
  · unfold State.restartWritten
    generalize (s.applyReload p.reload).restartRecords cleared = u
    exact (Keeps.of_spreads (R := fun _ _ => False) (Spreads.create u _)).head

/-- Rings are as they were under a reload that is not clearing. -/
theorem OutletSettings.owns_of_layout {st ts : OutletSettings} (h : ts.layout = st.layout) (p : Nat) : ts.owns p = st.owns p := by
  unfold OutletSettings.layout at h
  unfold OutletSettings.owns
  cases on : st.enabled <;> cases on' : ts.enabled <;> simp_all

theorem State.applyReload_layout {s : State} {reload : Bool} (same : s.clearing reload = false) :
    (∀ (o : OutletId) (p : Nat), ((s.applyReload reload).outletSettings o).owns p = (s.outletSettings o).owns p) ∧
      (s.applyReload reload).capacity = s.capacity := by
  cases reload with
  | false => exact ⟨fun _ _ => rfl, rfl⟩
  | true =>
    simp only [State.clearing, Bool.true_and, Bool.or_eq_false_iff, bne_eq_false_iff_eq] at same
    obtain ⟨layouts, region⟩ := same
    refine ⟨fun o p => OutletSettings.owns_of_layout ?_ p, ?_⟩
    · have entry : s.imageCopy.outlets[o].layout = s.settings.outlets[o].layout := by
        simpa using congrArg (fun v : Vector (Option PageRange) 8 => v[o]) layouts
      exact entry
    · have count : s.imageCopy.regionCount = s.settings.regionCount := congrArg Prod.snd region
      unfold State.capacity
      exact congrArg (fun n : Nat => n * 1024) count

/-- A restart that keeps record state keeps the records in place. -/
theorem RecordsInPlace.resumed {s : State} (h : RecordsInPlace s) (p : RestartProgress) (same : s.clearing p.reload = false)
    (loaded : s.loading = false) : RecordsInPlace (s.finishRestart p false) := by
  obtain ⟨rings, capacity⟩ := State.applyReload_layout same
  obtain ⟨port, head⟩ := s.finishRestart_port p false
  have kept : Keeps (fun _ x => x = .writer) (s.applyReload p.reload) ((s.applyReload p.reload).restartRecords false) := by
    rw [State.restartRecords_kept]
    have inner := Keeps.keepRecords (s.applyReload p.reload)
    generalize (s.applyReload p.reload).keepRecords = u at inner
    exact inner.trans (.positions u 0 0)
  have settings := (s.finishRestart_settings p false)
  have reloaded := s.applyReload_rest p.reload
  refine h.follow (fun o n owned => ?_) ?_ ?_ (s.finishRestart_resumed p false).loading (fun b busy writes => ?_) (fun o => ?_)
    fun loads => ?_
  · unfold State.outletSettings
    rw [settings]
    exact (rings o n).trans owned
  · unfold State.capacity
    rw [settings]
    exact capacity
  · exact head.trans (kept.head.trans (congrArg (fun u : State => u.evidence.head) reloaded :))
  · rw [port] at busy
    exact (congrArg State.port reloaded).symm.trans (kept.port b busy writes)
  · have writer : ((s.finishRestart p false).outlet o).writer = ((s.applyReload p.reload).keepRecords.outlet o).writer := by
      rw [State.finishRestart_outlet, State.restartRecords_kept]
      generalize (s.applyReload p.reload).keepRecords = u
      rfl
    rw [writer, ← s.applyReload_outlet p.reload o]
    exact State.keepRecords_queues _ o
  · rw [loaded] at loads
    cases loads

/-- A clearing restart with the port free leaves every writer at its restart values. -/
theorem RecordsInPlace.cleared {s : State} (free : s.port = none) (p : RestartProgress) : RecordsInPlace (s.finishRestart p true) := by
  have writer (o : OutletId) : ((s.finishRestart p true).outlet o).writer = restWriter := by
    rw [State.finishRestart_outlet, State.restartRecords_cleared]
    exact congrArg Outlet.writer (State.clearRecords_outlet _ o)
  have port : (s.finishRestart p true).port = none := by
    rw [(s.finishRestart_port p true).1]
    exact (congrArg State.port (s.applyReload_rest p.reload)).trans free
  refine .of_free port (fun o => ?_) fun _ o => ?_
  · rw [writer]
    exact restWriter_inPlace _
  · rw [writer]
    exact ⟨rfl, rfl⟩

/-- The end of a burst, from writers in place. -/
theorem RecordsInPlace.freed {s : State} (writers : ∀ o : OutletId, (s.outlet o).writer.InPlace (s.outletSettings o))
    (rest : WritersRest s) : RecordsInPlace s.freePort := by
  obtain ⟨-, same⟩ | ⟨p, -, same⟩ := s.freePort_cases
  · rw [same]
    exact .of_free rfl writers rest
  · rw [same]
    exact .cleared rfl p

/-! ### Images (R176) -/

theorem defaultImage_refusal : defaultImage.refusal = none := by decide

theorem ImagesValid.of_default {s : State} (settings : s.settings = defaultImage) (copy : s.imageCopy = defaultImage)
    (save : s.save = none) : ImagesValid s :=
  ⟨settings ▸ defaultImage_refusal, copy ▸ defaultImage_refusal, by simp [save]⟩

theorem ImagesValid.freePort {s : State} (h : ImagesValid s) : ImagesValid s.freePort := by
  obtain ⟨-, same⟩ | ⟨p, -, same⟩ := s.freePort_cases
  · rw [same]
    exact h
  · rw [same]
    exact (State.finishRestart_resumed { s with port := none } p true).images h

/-- Every command keeps the images valid (R176). -/
theorem exec_imagesValid {c : Instr} {s t : State} (h : ImagesValid s) (taken : exec c s = .next t) : ImagesValid t := by
  cases exec_effect taken with
  | kept k => exact k.images h
  | burst _ k _ => exact (k.images h).freePort
  | evidence _ _ => exact ImagesValid.freePort (s := s.writeEvidence _) h
  | writer _ _ => exact h
  | region _ _ => exact h
  | power i powered loading => exact .of_default rfl rfl rfl
  | load _ _ =>
    obtain ⟨u, k, same⟩ := s.completeLoad_cases
    rw [same]
    exact ⟨s.flash.image_valid, s.flash.image_valid, (k.images h).2.2⟩
  | @restart u k _ _ reload tag =>
    obtain ⟨v, p, closed, -, waits | ⟨cleared, goes, -⟩⟩ := u.runRestart_cases reload tag
    · rw [waits]
      exact (v.awaitBurst_frame p).2.2.1 (closed.images (k.images h))
    · rw [goes]
      exact (v.finishRestart_resumed p cleared).images (closed.images (k.images h))

/-! ### Every command -/

theorem Evidence.settleBurst_head (capacity : Nat) (e : Evidence) (p : BitVec 32) (rs : List EvidenceRecord) :
    (Evidence.settleBurst capacity e p rs).1.head = e.head := by
  induction rs generalizing e p with
  | nil => rfl
  | cons r rs ih =>
    unfold Evidence.settleBurst
    split
    · exact ih e.overwrite (p + 1)
    · exact ih e (p + 1)

/-- A region of a valid image has slots (R151, R176). -/
theorem State.capacity_pos {s : State} (h : ImagesValid s) : 0 < s.capacity := by
  have size : s.settings.regionCount ≠ 0 := by
    intro zero
    have refused := h.1
    unfold Image.refusal at refused
    rw [zero] at refused
    split at refused
    · cases refused
    · split at refused
      · cases refused
      · split at refused
        · cases refused
        · cases refused
  exact Nat.mul_pos (Nat.pos_of_ne_zero size) (by decide)

/-- What stands after a writer's burst lies in place as what stood before it did. -/
theorem WriterAfter.inPlace {s : State} (h : RecordsInPlace s) {o : OutletId} {w : Writer} (after : WriterAfter s o w) :
    w.InPlace (s.outletSettings o) ∧ (s.loading = true → w.fifo = [] ∧ w.placed = none) := by
  obtain ⟨places, ⟨record, -⟩, resting⟩ := (recordsInPlace_iff s).mp h
  cases after with
  | same eq =>
    rw [eq]
    exact ⟨places o, fun loads => resting loads o⟩
  | @goes n last p r busy progress eq =>
    obtain ⟨q, x, progress', within⟩ := record o _ _ busy
    cases progress.symm.trans progress'
    obtain ⟨placed, rest, fifo⟩ := Writer.inProgress_eq_some progress
    obtain ⟨y, more, fifo', owned, fits, -⟩ := (places o).2 p placed
    cases fifo.symm.trans fifo'
    rw [eq]
    refine ⟨⟨(places o).1, fun q hq => ?_⟩, fun loads => ?_⟩
    · cases hq
      exact ⟨r, rest, fifo, owned, fits, within⟩
    · have none := (resting loads o).2
      rw [placed] at none
      cases none
  | complete eq =>
    rw [eq]
    refine ⟨⟨fun r mem => (places o).1 r (List.mem_of_mem_tail mem), nofun⟩, fun loads => ⟨?_, rfl⟩⟩
    rw [(resting loads o).1]
    rfl

/-- Every command keeps records in their pages and evidence bursts in their region. -/
theorem exec_recordsInPlace {c : Instr} {s t : State} (laws : OutletLaws s) (images : ImagesValid s) (h : RecordsInPlace s)
    (taken : exec c s = .next t) : RecordsInPlace t := by
  obtain ⟨places, ⟨record, evidence⟩, resting⟩ := (recordsInPlace_iff s).mp h
  cases exec_effect taken with
  | kept k =>
    by_cases arrives : ∃ (o : OutletId) (bytes : Bytes), c = .airFrameArrival o bytes
    · obtain ⟨o, bytes, rfl⟩ := arrives
      exact h.arrival laws taken k
    by_cases takes : ∃ o : OutletId, c = .recordTake o
    · obtain ⟨o, rfl⟩ := takes
      exact h.take taken k
    have same (o : OutletId) : (t.outlet o).writer = (s.outlet o).writer := by
      refine k.outlets o .writer fun reached => ?_
      cases c with
      | airFrameArrival p bytes => exact arrives ⟨p, bytes, rfl⟩
      | recordTake p => exact takes ⟨p, rfl⟩
      | _ => simp [Instr.reach] at reached
    exact h.of_keeps k (fun o => by rw [same]; exact .refl _) fun _ => same
  | @burst u busy k writers =>
    refine RecordsInPlace.freed (s := u) (fun o => ?_) fun loads o => ?_
    · rw [k.outletSettings]
      exact ((writers o).inPlace h).1
    · exact ((writers o).inPlace h).2 (k.loading.symm.trans loads)
  | evidence _ _ => exact RecordsInPlace.freed (s := s.writeEvidence _) places resting
  | @writer o p r high low _ progress =>
    refine (recordsInPlace_iff _).mpr ⟨places, ⟨fun q n last busy => ?_, nofun⟩, resting⟩
    cases busy
    obtain ⟨placed, rest, fifo⟩ := Writer.inProgress_eq_some progress
    obtain ⟨x, more, fifo', -, -, written⟩ := (places o).2 p placed
    cases fifo.symm.trans fifo'
    refine ⟨p, r, progress, ?_⟩
    have part : burstOf p r ≤ r.bytes.length - p.written := Nat.min_le_right _ _
    omega
  | @region high low _ loaded =>
    refine (recordsInPlace_iff _).mpr ⟨places, ⟨nofun, fun n busy => ⟨loaded, ?_⟩⟩, resting⟩
    cases busy
    have below : s.slot s.evidence.head < s.capacity := Nat.mod_lt _ (State.capacity_pos images)
    have part : State.burstSize { s with highPos := high, lowPos := low } ≤ s.capacity - s.slot s.evidence.head :=
      (Nat.min_le_right _ _).trans (Nat.min_le_right _ _)
    have head : (State.grantEvidence { s with highPos := high, lowPos := low }).evidence.head = s.evidence.head :=
      Evidence.settleBurst_head _ _ _ _
    change s.slot (State.grantEvidence { s with highPos := high, lowPos := low }).evidence.head + _ ≤ s.capacity
    rw [head]
    omega
  | power i powered loading =>
    have outlet (o : OutletId) :
        (({ s.powerOnAt i with powered := powered, loading := loading }).refresh.outlet o).writer = restWriter :=
      congrArg Outlet.writer (s.powerOnAt_outlet i o)
    refine .of_free rfl (fun o => ?_) fun _ o => ?_
    · rw [outlet]
      exact restWriter_inPlace _
    · rw [outlet]
      exact ⟨rfl, rfl⟩
  | load _ loads =>
    have writer (o : OutletId) : (s.completeLoad.refresh.outlet o).writer = (s.outlet o).writer := by
      rw [State.refresh_outlet, State.completeLoad_outlet]
    obtain ⟨u, k, same⟩ := s.completeLoad_cases
    have port : s.completeLoad.port = u.port := by rw [same]; rfl
    have held (o : OutletId) := resting loads o
    refine (recordsInPlace_iff _).mpr ⟨fun o => ?_, ⟨fun o n last busy => ?_, fun n busy => ?_⟩, fun _ o => ?_⟩
    · rw [writer]
      exact ⟨by simp [(held o).1], by simp [(held o).2]⟩
    · obtain ⟨p, r, progress, -⟩ := record o n last (k.port _ (port.symm.trans busy) trivial)
      rw [Writer.inProgress_of_none (held o).2] at progress
      cases progress
    · have loaded := (evidence n (k.port _ (port.symm.trans busy) trivial)).1
      rw [loads] at loaded
      cases loaded
    · rw [writer]
      exact held o
  | @restart u k loaded _ reload tag =>
    obtain ⟨v, p, closed, outlets, way⟩ := u.runRestart_cases reload tag
    have loaded' : v.loading = false := closed.loading.trans loaded
    have same (o : OutletId) : (v.outlet o).writer = (s.outlet o).writer := by
      rw [outlets]
      exact k.outlets o .writer id
    have kept : RecordsInPlace v :=
      h.of_keeps ((k.mono fun _ _ impossible => impossible.elim).trans closed) (fun o => by rw [same]; exact .refl _) fun _ => same
    obtain waits | ⟨cleared, goes, clears, free⟩ := way
    · rw [waits]
      exact kept
    · rw [goes]
      cases cleared with
      | true => exact .cleared (free rfl) p
      | false => exact kept.resumed p clears.symm loaded'

/-! ### O9 -/

/-- A ring of a valid image lies within record memory (R112, R113, R176). -/
theorem Image.ring_within {g : Image} (valid : g.refusal = none) {o : OutletId} {p : Nat} (owned : g.outlets[o].owns p = true) :
    p < g.pages := by
  obtain ⟨enabled, -, high⟩ := (OutletSettings.owns_iff _ _).mp owned
  have within : ((g.region :: g.rings).any fun r => decide (g.pages < r.1 + r.2)) = false := by
    refine Bool.eq_false_of_not_eq_true fun beyond => ?_
    unfold Image.refusal at valid
    split at valid
    · cases valid
    · cases valid
  have ring : (g.outlets[o].ringFirst, g.outlets[o].ringCount) ∈ g.region :: g.rings := by
    refine List.mem_cons_of_mem _ (List.mem_map.mpr ⟨g.outlets[o], List.mem_filter.mpr ⟨?_, enabled⟩, rfl⟩)
    exact Vector.mem_toList_iff.mpr (Vector.getElem_mem _)
  have fits := List.any_eq_false.mp within _ ring
  simp only [decide_eq_true_eq] at fits
  omega

/-- No command faults on records in place under valid images. -/
theorem exec_safe (c : Instr) {s : State} (images : ImagesValid s) (h : RecordsInPlace s) : ∃ t : State, exec c s = .next t := by
  have settles : Settled s (exec c s) → ∃ t : State, exec c s = .next t := fun settled => by
    cases eq : exec c s with
    | next t => exact ⟨t, rfl⟩
    | fault f => rw [eq] at settled; cases settled
    | refused r => rw [eq] at settled; cases settled
  by_cases grants : c = .arbiterGrant
  · subst grants
    obtain settled | ⟨d, o, p, r, -, -, -, progress, beyond⟩ := settled_grant s
    · exact settles settled
    · obtain ⟨placed, rest, fifo⟩ := Writer.inProgress_eq_some progress
      obtain ⟨x, more, fifo', owned, fits, written⟩ := (((recordsInPlace_iff s).mp h).1 o).2 p placed
      cases fifo.symm.trans fifo'
      have page : p.page < s.settings.memoryGiB * 8192 := Image.ring_within images.1 owned
      have part : burstOf p r ≤ r.bytes.length - p.written := Nat.min_le_right _ _
      unfold State.memorySize Placed.address pageSize at beyond
      unfold pageSize at fits
      omega
  · exact settles (settled_exec c s grants)

/-- Settles O9: the three laws are kept together, and a burst within its page lies within record memory. -/
theorem recordWritesStayInMemory : Obligations.RecordWritesStayInMemory := by
  rintro s ⟨laws, images, places⟩
  obtain idle | ⟨c, rest, -, taken⟩ := step_cases s
  · refine ⟨⟨s, idle⟩, fun t stepped => ?_⟩
    cases idle.symm.trans stepped
    exact ⟨laws, images, places⟩
  · obtain ⟨u, next⟩ := exec_safe c (s := { s with pending := rest }) images places
    refine ⟨⟨u, taken.trans next⟩, fun t stepped => ?_⟩
    have ran := taken.symm.trans stepped
    exact ⟨exec_outletLaws (s := { s with pending := rest }) laws ran, exec_imagesValid (s := { s with pending := rest }) images ran,
      exec_recordsInPlace (s := { s with pending := rest }) laws images places ran⟩

end Sys2Proof.Machine
end


section
/-! The state after reset meets the laws that the steps keep. -/

namespace Sys2Proof.Machine

theorem State.reset_outlet (o : OutletId) : State.reset.outlet o = powerOnOutlet := by
  simp [State.reset, State.outlet]

theorem reset_attentionRight : AttentionRight State.reset := State.refresh_attention State.reset

theorem reset_withinBounds : WithinBounds State.reset := by
  refine ⟨fun l => ?_, Nat.zero_le _, Nat.zero_le _, fun o => ?_⟩
  · cases l <;> decide
  · rw [State.reset_outlet]
    exact Nat.zero_le _

theorem reset_segmentIdsUnique : SegmentIdsUnique State.reset := fun o => by
  rw [State.reset_outlet]
  exact List.nodup_nil

theorem reset_measurementLaws : MeasurementLaws State.reset := fun o => by
  have rest : (State.reset.outlet o).Restored := by
    rw [State.reset_outlet]
    exact ⟨rfl, rfl, rfl⟩
  exact rest.measured

theorem reset_outletLaws : OutletLaws State.reset := by
  refine ⟨fun o => ?_, fun o b opened => ?_, fun _ o => ?_, fun _ => rfl⟩
  · unfold State.current
    rw [State.reset_outlet]
    decide
  · rw [State.reset_outlet] at opened
    cases opened
  · rw [State.reset_outlet]
    rfl

theorem reset_recordsInPlace : RecordsInPlace State.reset := by
  refine .of_free rfl (fun o => ?_) fun _ o => ?_
  · rw [State.reset_outlet]
    exact restWriter_inPlace _
  · rw [State.reset_outlet]
    exact ⟨rfl, rfl⟩

/-- Settles O10: every block of the reset state is at rest, and its images are the default one. -/
theorem resetMeetsLaws : Obligations.ResetMeetsLaws :=
  ⟨reset_attentionRight, ⟨rfl, rfl⟩, reset_withinBounds, reset_segmentIdsUnique, reset_measurementLaws, reset_outletLaws,
    .of_default rfl rfl rfl, reset_recordsInPlace⟩

end Sys2Proof.Machine
end

section
/-! Accepted cue edges (R27, R28, R41), and effects that go over the outlets one by one. -/

namespace Sys2Proof.Machine

/-! ### Effects on each outlet in turn -/

/-- The same effect on distinct outlets in turn, each reading no other outlet: every outlet of the list is changed once. -/
theorem State.foldl_outlets {s : State} {f : State → OutletId → State} {g : OutletId → Outlet → Outlet}
    (step : ∀ (u : State) (o : OutletId), { u with outlets := s.outlets } = s → f u o = u.modOutlet o (g o))
    {os : List OutletId} (once : os.Nodup) {u : State} (frame : { u with outlets := s.outlets } = s) :
    (∀ o : OutletId, (os.foldl f u).outlet o = if o ∈ os then g o (u.outlet o) else u.outlet o) ∧
      { os.foldl f u with outlets := s.outlets } = s := by
  induction os generalizing u with
  | nil => exact ⟨fun o => (if_neg (by simp)).symm, frame⟩
  | cons p os ih =>
    obtain ⟨first, once⟩ := List.nodup_cons.mp once
    rw [List.foldl_cons, step u p frame]
    obtain ⟨outlets, rest⟩ := ih once (u := u.modOutlet p (g p)) frame
    refine ⟨fun o => ?_, rest⟩
    rw [outlets o]
    by_cases here : o = p
    · subst here
      rw [if_neg first, if_pos (by simp), State.outlet_modOutlet_same]
    · simp [State.outlet_modOutlet_of_ne u here, here]

theorem mem_allOutlets (o : OutletId) : o ∈ allOutlets := List.mem_finRange o

theorem allOutlets_once : allOutlets.Nodup := List.nodup_finRange 8

/-- The same effect on every outlet. -/
theorem State.eachOutlet_spec {s : State} {f : OutletId → State → State} {g : OutletId → Outlet → Outlet}
    (step : ∀ (u : State) (o : OutletId), { u with outlets := s.outlets } = s → f o u = u.modOutlet o (g o)) :
    (∀ o : OutletId, (s.eachOutlet f).outlet o = g o (s.outlet o)) ∧ { s.eachOutlet f with outlets := s.outlets } = s := by
  obtain ⟨outlets, frame⟩ := State.foldl_outlets step allOutlets_once (u := s) rfl
  exact ⟨fun o => (outlets o).trans (if_pos (mem_allOutlets o)), frame⟩

/-! ### A trigger at one outlet (R41) -/

/-- Does an outlet's head wait on a cue line with the armed slot empty? -/
def State.awaits (s : State) (k : CueLine) (o : OutletId) : Prop :=
  (∃ d : Declaration, s.head o = some d ∧ d.start = some (.cued k)) ∧ (s.outlet o).sched.armed = none

/-- An outlet after an accepted cue edge: its head armed where it waits on the line. -/
def Outlet.cued (t : Outlet) (k : CueLine) (boundary : BoundaryStamp) (air : AirTime) : Outlet :=
  match t.sched.queue.head? with
  | none => t
  | some d =>
    if d.start = some (.cued k) ∧ t.sched.armed.isNone then { t with sched := t.sched.arm d boundary (.cue k) air false } else t

theorem Outlet.cued_of_empty {t : Outlet} (head : t.sched.queue.head? = none) (k : CueLine) (boundary : BoundaryStamp)
    (air : AirTime) : t.cued k boundary air = t := by
  simp [Outlet.cued, head]

theorem Outlet.cued_of_head {t : Outlet} {d : Declaration} (head : t.sched.queue.head? = some d) (k : CueLine)
    (boundary : BoundaryStamp) (air : AirTime) :
    t.cued k boundary air =
      if d.start = some (.cued k) ∧ t.sched.armed.isNone then { t with sched := t.sched.arm d boundary (.cue k) air false }
      else t := by
  simp [Outlet.cued, head]

theorem State.cueTrigger_eq (s : State) (o : OutletId) (k : CueLine) (stamp : AirTime) :
    s.cueTrigger o k stamp = s.modOutlet o fun t => t.cued k (.stamp (s.delayed o stamp)) s.time.air := by
  unfold State.cueTrigger
  cases head : s.head o with
  | none => exact (State.modOutlet_self s o _ (Outlet.cued_of_empty head _ _ _)).symm
  | some d =>
    dsimp only
    split
    · rename_i waits
      have armed := (Outlet.cued_of_head head k (.stamp (s.delayed o stamp)) s.time.air).trans (if_pos waits)
      exact State.modOutlet_congr (s := s) (o := o) (f := fun t => { t with sched := t.sched.arm d _ _ _ _ }) armed.symm
    · rename_i stays
      exact (State.modOutlet_self s o _ ((Outlet.cued_of_head head _ _ _).trans (if_neg stays))).symm

theorem State.cued_of_awaits {s : State} {k : CueLine} {o : OutletId} {d : Declaration} (awaits : s.awaits k o)
    (head : s.head o = some d) (boundary : BoundaryStamp) (air : AirTime) :
    (s.outlet o).cued k boundary air = { s.outlet o with sched := (s.outlet o).sched.arm d boundary (.cue k) air false } := by
  obtain ⟨⟨e, asked, start⟩, free⟩ := awaits
  cases asked.symm.trans head
  exact (Outlet.cued_of_head head _ _ _).trans (if_pos ⟨start, by simp [free]⟩)

theorem State.cued_of_not_awaits {s : State} {k : CueLine} {o : OutletId} (h : ¬s.awaits k o) (boundary : BoundaryStamp)
    (air : AirTime) : (s.outlet o).cued k boundary air = s.outlet o := by
  cases head : s.head o with
  | none => exact Outlet.cued_of_empty head _ _ _
  | some d =>
    exact (Outlet.cued_of_head head _ _ _).trans (if_neg fun ⟨start, free⟩ => h ⟨⟨d, head, start⟩, by simpa using free⟩)

/-- No outlet is triggered exactly where none awaits the line. -/
theorem State.cueTargets_eq_zero (s : State) (k : CueLine) : s.cueTargets k = 0 ↔ ∀ o : OutletId, ¬s.awaits k o := by
  unfold State.cueTargets State.awaits
  rw [List.countP_eq_zero]
  refine ⟨fun none o awaits => ?_, fun none o _ => ?_⟩
  · obtain ⟨⟨d, head, start⟩, free⟩ := awaits
    exact none o (mem_allOutlets o) (by simp [head, start, free])
  · intro asked
    rw [Bool.and_eq_true, beq_iff_eq, Option.map_eq_some_iff, Option.isNone_iff_eq_none] at asked
    exact none o asked

/-! ### An accepted edge (R28) -/

theorem CueRecord.accepts_iff (c : CueRecord) (t : Instant) :
    c.accepts t = true ↔ ∀ u : Instant, c.acceptedAt = some u → u + 80000000 ≤ t := by
  unfold CueRecord.accepts
  split
  · rename_i u h
    simp only [h, ms, Option.some.injEq, forall_eq']
    exact decide_eq_true_iff
  · rename_i h
    simp [h]

/-- The state once an accepted edge is captured and flagged. -/
def State.captured (s : State) (k : CueLine) (t : Instant) : State :=
  (s.setCue k ((s.cue k).capture s.time.air t)).raiseBoth .cue

/-- An accepted edge beside the outlets and the evidence. -/
theorem State.captured_cue (s : State) (k j : CueLine) (t : Instant) :
    (s.captured k t).cue j = if j = k then (s.cue k).capture s.time.air t else s.cue j := by
  show State.cue (s.setCue k _) j = _
  split
  · rename_i here
    rw [here, State.setCue_cue_same]
  · rename_i here
    exact State.setCue_cue_of_ne s here _

theorem State.acceptEdge_of_stray {s : State} {k : CueLine} (h : s.cueTargets k = 0) (t : Instant) :
    s.acceptEdge k t = (s.captured k t).create (strayDraft k s.time.air ((s.captured k t).cue k).count) :=
  if_pos h

theorem State.acceptEdge_of_awaited {s : State} {k : CueLine} (h : s.cueTargets k ≠ 0) (t : Instant) :
    s.acceptEdge k t = (s.captured k t).eachOutlet fun o u => u.cueTrigger o k s.time.air :=
  if_neg h

/-- Every outlet after an accepted edge, and what is left as the capture left it. -/
theorem State.acceptEdge_spec (s : State) (k : CueLine) (t : Instant) :
    (∀ o : OutletId, (s.acceptEdge k t).outlet o = (s.outlet o).cued k (.stamp (s.delayed o s.time.air)) s.time.air) ∧
      (s.acceptEdge k t).evidence =
        (if s.cueTargets k = 0 then s.evidence.create (strayDraft k s.time.air (min 255 ((s.cue k).count + 1))) else s.evidence) ∧
      { s.acceptEdge k t with outlets := s.outlets, evidence := s.evidence } = s.captured k t := by
  by_cases stray : s.cueTargets k = 0
  · rw [State.acceptEdge_of_stray stray, if_pos stray, State.captured_cue, if_pos rfl]
    exact ⟨fun o => (State.cued_of_not_awaits ((s.cueTargets_eq_zero k).mp stray o) _ _).symm, rfl, rfl⟩
  · rw [State.acceptEdge_of_awaited stray, if_neg stray]
    obtain ⟨outlets, frame⟩ := State.eachOutlet_spec (s := s.captured k t) (f := fun o u => u.cueTrigger o k s.time.air)
      (g := fun o v => v.cued k (.stamp (s.delayed o s.time.air)) s.time.air) fun u o frame => by
        rw [State.cueTrigger_eq]
        have air : u.time.air = s.time.air := (congrArg (fun v : State => v.time.air) frame :)
        have settings : u.settings = s.settings := (congrArg State.settings frame :)
        rw [air, State.delayed, State.delayed, State.outletSettings, State.outletSettings, settings]
    generalize (s.captured k t).eachOutlet (fun o u => u.cueTrigger o k s.time.air) = u at outlets frame
    refine ⟨outlets, (congrArg State.evidence frame :), ?_⟩
    exact (congrArg (fun v : State => { v with outlets := s.outlets, evidence := s.evidence }) frame :)

theorem exec_cueEdge_of_accepted {s : State} {k : CueLine} {t : Instant} (powered : s.powered = true) (loading : s.loading = false)
    (accepted : (s.cue k).accepts t = true) : exec (.cueEdge k t) s = .next (s.acceptEdge k t).refresh :=
  if_pos (by simp [powered, loading, accepted])

theorem exec_cueEdge_of_ignored {s : State} {k : CueLine} {t : Instant}
    (ignored : s.loading = true ∨ ¬(s.cue k).accepts t = true) : exec (.cueEdge k t) s = .next s :=
  if_neg (by
    rw [Bool.and_eq_true, Bool.and_eq_true]
    rintro ⟨⟨_, loading⟩, accepted⟩
    cases ignored with
    | inl h => simp [h] at loading
    | inr h => exact h accepted)

/-- Settles O23: the outlets are gone over one by one, and none of them is changed twice. -/
theorem cueEdgeTaken : Obligations.CueEdgeTaken := by
  intro s k t powered
  constructor
  · intro ignored
    refine exec_cueEdge_of_ignored (ignored.imp_right ?_)
    rintro ⟨u, previous, early⟩ accepted
    exact absurd ((s.cue k).accepts_iff t |>.mp accepted u previous) (Nat.not_le.mpr early)
  · intro loading spaced waits
    obtain ⟨outlets, evidence, frame⟩ := s.acceptEdge_spec k t
    have done := exec_cueEdge_of_accepted powered loading (((s.cue k).accepts_iff t).mpr spaced)
    generalize s.acceptEdge k t = u at outlets evidence frame done
    have cues : ∀ j : CueLine, u.refresh.cue j = (s.captured k t).cue j := fun j => (congrArg (State.cue · j) frame :)
    refine ⟨u.refresh, done, ?_, fun j other => ?_, fun l => ?_, fun o d awaits head => ?_, fun o stays => ?_, fun ⟨o, awaits⟩ => ?_,
      fun none => ?_, ?_⟩
    · rw [cues, State.captured_cue, if_pos rfl]
      rfl
    · rw [cues, State.captured_cue, if_neg other]
    · rw [State.refresh_link, show u.link l = (s.captured k t).link l from (congrArg (State.link · l) frame :)]
      exact State.raiseBoth_raises _ .cue l
    · rw [State.refresh_outlet, outlets]
      exact State.cued_of_awaits awaits head _ _
    · rw [State.refresh_outlet, outlets]
      exact State.cued_of_not_awaits stays _ _
    · refine evidence.trans (if_neg fun stray => ?_)
      exact (s.cueTargets_eq_zero k).mp stray o awaits
    · exact evidence.trans (if_pos ((s.cueTargets_eq_zero k).mpr none))
    · have back : { s.captured k t with cues := s.cues, links := s.links } = s := rfl
      exact (congrArg (fun v : State => { v with cues := s.cues, links := s.links }) frame :).trans back

end Sys2Proof.Machine
end

section
/-! The gap timer and the excursion counter (R84, R85, R106, R107, R109). -/

namespace Sys2Proof.Machine

/-! ### The gap timer -/

theorem State.passGap_of_open {s : State} {o : OutletId} {g : OpenGap} (gap : (s.outlet o).subs.gap = some g) (start : AirTime)
    (rfn : Option Rfn) :
    s.passGap o start rfn = s.modSubs o fun b => { b with gap := some { g with length := satAdd max32 g.length 1 } } := by
  rw [State.passGap, gap]

theorem State.passGap_of_running {s : State} {o : OutletId} {n : Nat} (gap : (s.outlet o).subs.gap = none)
    (timer : (s.outlet o).subs.timer = .running n) (start : AirTime) (rfn : Option Rfn) :
    s.passGap o start rfn =
      if n ≤ 1 then s.openGap o start rfn else s.modSubs o fun b => { b with timer := .running (n - 1) } := by
  rw [State.passGap, gap]
  dsimp only
  rw [State.runTimer, timer]

theorem State.passGap_of_still {s : State} {o : OutletId} (gap : (s.outlet o).subs.gap = none)
    (timer : (s.outlet o).subs.timer = .stopped ∨ (s.outlet o).subs.timer = .expired) (start : AirTime) (rfn : Option Rfn) :
    s.passGap o start rfn = s := by
  rw [State.passGap, gap]
  dsimp only
  rcases timer with timer | timer <;> rw [State.runTimer, timer]

/-- A gap opens: the timer has expired, the gap is counted, the breach line stands, and its rise raises BREACH (R85, R109). -/
theorem State.openGap_eq (s : State) (o : OutletId) (start : AirTime) (rfn : Option Rfn) :
    s.openGap o start rfn =
      let noted := s.modOutlet o fun t =>
        { t with
          subs := { t.subs with
                    timer := .expired, gap := some { start := start, rfn := rfn, length := 1 }
                    record := t.subs.record.map fun k => { k with gapCount := min 4294967295 (k.gapCount + 1) } }
          verdict := { t.verdict with gapOpen := true, line := true } }
      if (s.outlet o).verdict.line then noted else noted.raiseBoth .breach := by
  unfold State.openGap State.reportGap State.setBreach
  simp only [State.modSubs, State.modVerdict, State.outlet_modOutlet_same, State.modOutlet_modOutlet, VerdictUnit.follow,
    Bool.true_or, Bool.true_and, Bool.not_eq_true', satAdd, max32, Subs.modRecord]
  cases (s.outlet o).verdict.line <;> rfl

theorem exec_gapOpen_of_due {s : State} {o : OutletId} {a : AirTime} {n : Rfn} (powered : s.powered = true)
    (timer : (s.outlet o).subs.timer = .running 0) (active : (s.outlet o).intake.state = .active)
    (last : (s.outlet o).intake.lastArrival = some (a, n)) : exec (.gapOpen o) s = .next (s.openGap o a (some n)).refresh := by
  show execGapOpen o s = _
  unfold execGapOpen
  dsimp only
  rw [active, last]
  exact if_pos (by simp [powered, timer])

/-! ### The excursion counter -/

theorem State.countExcursion_of_off {s : State} {o : OutletId} (off : (s.outlet o).verdict.counter = none) (l : Int)
    (stamp : AirTime) : s.countExcursion o l stamp = s := by
  unfold State.countExcursion
  rw [off]
  cases s.current o <;> rfl

theorem State.countExcursion_of_running {s : State} {o : OutletId} {c : Current} {n : Nat} (current : s.current o = some c)
    (counter : (s.outlet o).verdict.counter = some n) (l : Int) (stamp : AirTime) :
    s.countExcursion o l stamp =
      if l < (s.limitsOf c).excursionThreshold then s
      else if n ≤ 1 then s.excursion o c l stamp
      else s.modVerdict o fun v => { v with counter := some (n - 1) } := by
  rw [State.countExcursion, current, counter]

theorem exec_excursion_of_due {s : State} {o : OutletId} {c : Current} (powered : s.powered = true)
    (current : s.current o = some c) (counter : (s.outlet o).verdict.counter = some 0) (l : Int) (a : AirTime) :
    exec (.excursion o l a) s = .next (s.excursion o c l a).refresh := by
  show execExcursion o l a s = _
  unfold execExcursion
  rw [current]
  exact if_pos (by simp [powered, counter])

/-- Settles O30: the cases of the gap timer and of the excursion counter, and the commands that stand for a 0. -/
theorem countersRunAndFire : Obligations.CountersRunAndFire := by
  intro s o opened fired
  refine ⟨fun a n => ⟨fun g gap => State.passGap_of_open gap a n, fun gap => ⟨fun v timer => ?_, fun still =>
    State.passGap_of_still gap still a n⟩⟩, fun l a c current => ⟨fun off => State.countExcursion_of_off off l a, fun v counter => ?_⟩,
    fun powered => ⟨fun a n timer active last => ?_, fun l a c current counter => exec_excursion_of_due powered current counter l a⟩⟩
  · have passed := State.passGap_of_running gap timer a n
    exact ⟨fun two => passed.trans (if_neg (by omega)), fun one => (passed.trans (if_pos one)).trans (s.openGap_eq o a n)⟩
  · have counted := State.countExcursion_of_running current counter l a
    refine ⟨fun below => counted.trans (if_pos below), fun reached => ⟨fun two => ?_, fun one => ?_⟩⟩
    · exact counted.trans ((if_neg (by omega)).trans (if_neg (by omega)))
    · exact counted.trans ((if_neg (by omega)).trans (if_pos one))
  · rw [exec_gapOpen_of_due powered timer active last, s.openGap_eq]

end Sys2Proof.Machine
end

section
/-! The verdicts of closed segments and breaks (R99 to R105). -/

namespace Sys2Proof.Machine

theorem Judgement.fails_iff (j : Judgement) :
    j.fails = true ↔ j.loudness = .high ∨ j.loudness = .low ∨ j.shortTerm = .over ∨ j.peakOver = true := by
  simp [Judgement.fails, or_assoc]

theorem State.autoHold_of_unwanted (s : State) {failed holds : Bool} (h : failed = false ∨ holds = false) (origin : HoldOrigin)
    (o : OutletId) (a b : AirTime) : s.autoHold (failed && holds) origin o a b = (s, .none) :=
  if_neg (by rcases h with h | h <;> simp [h])

theorem State.autoHold_of_wanted (s : State) {failed holds : Bool} (fails : failed = true) (wanted : holds = true)
    (origin : HoldOrigin) (o : OutletId) (a b : AirTime) :
    s.autoHold (failed && holds) origin o a b =
      ((s.place origin o (a.earlier b) (a.later b)).1, (s.place origin o (a.earlier b) (a.later b)).2.result) :=
  if_pos (by simp [fails, wanted])

theorem State.formVerdict_of_segment {s : State} {o : OutletId} {c : ClosedSegment} {peak : Int}
    (slot : (s.outlet o).verdict.segSlot = some c) (final : c.finalPeak = some peak) :
    s.formVerdict (.segment o) = s.judgeSegment o c peak := by
  unfold State.formVerdict
  simp only [slot, final]

theorem State.formVerdict_of_brk {s : State} {o : OutletId} {c : ClosedBreak} (slot : (s.outlet o).verdict.brkSlot = some c)
    (final : c.finalPeak = true) : s.formVerdict (.brk o) = s.judgeBreak o c := by
  unfold State.formVerdict
  simp only [slot, final, if_true]

/-- Settles O33: the verdict's figures are its slot's own, and its hold is requested where it failed and its class holds. -/
theorem verdictsFormed : Obligations.VerdictsFormed := by
  constructor
  · intro s o c peak slot final
    refine ⟨_, _, State.formVerdict_of_segment slot final, rfl, rfl, rfl, rfl, rfl, rfl, rfl, rfl, rfl, rfl, ?_, fun unwanted => ?_,
      fun failed wanted => ?_⟩
    · rw [Bool.or_eq_true, Judgement.fails_iff, beq_iff_eq, or_assoc, or_assoc, or_assoc]
    · dsimp only at unwanted ⊢
      rw [State.autoHold_of_unwanted _ unwanted]
      exact ⟨rfl, rfl⟩
    · dsimp only at failed ⊢
      rw [State.autoHold_of_wanted _ failed wanted]
      exact ⟨rfl, rfl⟩
  · intro s o c slot final k
    refine ⟨_, _, State.formVerdict_of_brk slot final, rfl, rfl, rfl, rfl, rfl, Judgement.fails_iff _, fun unwanted => ?_,
      fun failed wanted => ?_⟩
    · dsimp only at unwanted ⊢
      rw [State.autoHold_of_unwanted _ (holds := (s.classOf c.brk.version c.brk.cls).holdOnFail) unwanted]
      exact ⟨rfl, rfl⟩
    · dsimp only at failed ⊢
      rw [State.autoHold_of_wanted _ (holds := (s.classOf c.brk.version c.brk.cls).holdOnFail) failed wanted]
      exact ⟨rfl, rfl⟩

end Sys2Proof.Machine
end

section
/-! Link resets (R173), power-on and the loss of power (R177, R179), and loading (R177). -/

namespace Sys2Proof.Machine

/-! ### The attention lines after a command -/

theorem State.refresh_level (s : State) (l : Link) : (s.refresh.link l).attention = (s.link l).level (s.evidence.condition l) := by
  cases l <;> rfl

/-- A port with its line where it belongs is left as it is. -/
theorem State.refresh_link_of_level {s : State} {l : Link} (h : (s.link l).level (s.evidence.condition l) = (s.link l).attention) :
    s.refresh.link l = s.link l := by
  rw [State.refresh_link, State.refresh_level, h]

/-! ### Link resets -/

/-- A reset reads nothing of its link's request queue. -/
theorem State.takeRequest_resetLink (s : State) (l : Link) (keep : List Tag) :
    (s.takeRequest l).resetLink l keep = s.resetLink l keep := by
  cases l <;> rfl

theorem State.resetLink_link (s : State) (l : Link) (keep : List Tag) :
    (s.resetLink l keep).link l = (s.link l).afterReset keep (s.defaultMask l) := by
  cases l <;> rfl

theorem State.resetLink_link_of_ne (s : State) {l m : Link} (h : m ≠ l) (keep : List Tag) :
    (s.resetLink l keep).link m = s.link m := by
  cases l <;> cases m
  · exact absurd rfl h
  · rfl
  · rfl
  · exact absurd rfl h

/-- The answer to LINK-RESET on the port just emptied (R173). -/
theorem LinkPort.answered_afterReset (p : LinkPort) (r : Request) (mask : Mask) (status : Status) (body : Body) :
    (p.afterReset [r.tag] mask).respond r.tag r.code status body =
      { p.afterReset [] mask with responses := [{ tag := r.tag, code := r.code, status := status, body := body }] } := by
  simp [LinkPort.afterReset, LinkPort.respond, powerOnPort]

theorem exec_linkReset_of_waits {s : State} {l : Link} {r : Request} (waits : Waits s l r) (code : r.code = 25) (body : r.body = []) :
    exec (.linkReset l) s =
      .next ((s.resetLink l [r.tag]).modLink l fun p => p.respond r.tag 25 .ok .none).refresh := by
  show execLinkReset l s = _
  rw [execLinkReset, State.nextRequest_of_waits waits]
  dsimp only
  rw [if_pos code, resetRequest, body, show readNothing [] = some () from rfl, withArgs_some, State.takeRequest_resetLink, ← code]
  rfl

theorem exec_linkResetLineRise_of_low {s : State} {l : Link} (powered : s.powered = true) (low : (s.link l).resetLine = false) :
    exec (.linkResetLineRise l) s =
      .next ((s.resetLink l []).modLink l fun p => { p with resetLine := true }).refresh :=
  (if_neg (by simp [low])).trans (if_pos powered)

theorem exec_linkResetLineRise_of_high {s : State} {l : Link} (high : (s.link l).resetLine = true) :
    exec (.linkResetLineRise l) s = .next s :=
  if_pos high

theorem exec_linkResetLineFall_of_high {s : State} {l : Link} (high : (s.link l).resetLine = true) :
    exec (.linkResetLineFall l) s = .next (s.modLink l fun p => { p with resetLine := false }).refresh :=
  if_pos high

/-- Settles O55: a reset changes its own link and what it gives up, and an edge or an answer after it the link alone. -/
theorem linkResets : Obligations.LinkResets := by
  intro s l m other powered cleared after
  have spec : ∀ (keep : List Tag) (f : LinkPort → LinkPort), after ((s.resetLink l keep).modLink l f).refresh := by
    intro keep f
    refine ⟨?_, ?_⟩
    · rw [State.refresh_link, State.modLink_link_of_ne _ other, State.resetLink_link_of_ne s other]
    · cases l
      · exact ⟨rfl, rfl, rfl, fun _ => ⟨rfl, rfl⟩, nofun, rfl⟩
      · exact ⟨rfl, rfl, rfl, nofun, fun _ => ⟨rfl, rfl⟩, rfl⟩
  refine ⟨fun r waits code body => ⟨_, exec_linkReset_of_waits waits code body, spec _ _, ?_⟩,
    fun low => ⟨_, exec_linkResetLineRise_of_low powered low, spec _ _, ?_, ?_⟩,
    fun high => ⟨exec_linkResetLineRise_of_high high, exec_linkResetLineFall_of_high high⟩⟩
  · rw [State.refresh_link, State.modLink_link, State.resetLink_link, ← code, LinkPort.answered_afterReset]
    rfl
  · rw [State.refresh_level, State.modLink_link]
    rfl
  · rw [State.refresh_link, State.modLink_link, State.resetLink_link]
    rfl

/-! ### Power -/

theorem exec_powerLoss_of_powered {s : State} (powered : s.powered = true) :
    exec .powerLoss s = .next { s.powerOnAt 0 with powered := false, loading := false }.refresh :=
  if_pos powered

/-- Power-on, or the loss of power: the attention lines of ports without flags stay down. -/
theorem State.powerOnAt_link (s : State) (t : Instant) (powered loading : Bool) (l : Link) :
    State.link { s.powerOnAt t with powered := powered, loading := loading }.refresh l = powerOnPort (s.link l).resetLine := by
  have port : State.link { s.powerOnAt t with powered := powered, loading := loading } l = powerOnPort (s.link l).resetLine := by
    cases l <;> rfl
  rw [State.refresh_link_of_level, port]
  rw [port]
  simp [LinkPort.level, powerOnPort, noFlags, emptyMask, FlagSet.meets]

/-- Settles O56: both transitions leave the power-on state of every block, with flash, the reset lines and the time they begin at. -/
theorem powerTransitions : Obligations.PowerTransitions := by
  intro s t quiet atRest
  have spec : ∀ (t : Instant) (powered loading : Bool),
      atRest { s.powerOnAt t with powered := powered, loading := loading }.refresh t := by
    intro t powered loading
    refine ⟨rfl, rfl, rfl, rfl, fun o => ?_, rfl, fun k => ?_, rfl, rfl, fun n => rfl, rfl, rfl, rfl, rfl, rfl, rfl, rfl, fun l => ?_⟩
    · exact (State.reset_outlet o).trans rfl
    · simp [State.refresh, State.powerOnAt, State.reset, State.cue, restCue]
    · exact s.powerOnAt_link t powered loading l
  exact ⟨⟨_, exec_powerOn t s, rfl, rfl, spec t true true⟩, fun powered => ⟨_, exec_powerLoss_of_powered powered, rfl, rfl,
    spec 0 false false⟩⟩

/-! ### Loading -/

/-- The stored image where it is valid (R177). -/
theorem Flash.image_eq (f : Flash) : f.image = f.judge.toOption.getD defaultImage := by
  unfold Flash.image
  cases f.judge <;> rfl

theorem Flash.refused_iff (f : Flash) : f.refused = true ↔ f.judge.toOption = none := by
  unfold Flash.refused
  cases f.judge with
  | error x => exact iff_of_true rfl rfl
  | ok g => exact iff_of_false nofun nofun

theorem exec_settingsLoadComplete_of_loading {s : State} (powered : s.powered = true) (loading : s.loading = true) :
    exec .settingsLoadComplete s = .next s.completeLoad.refresh :=
  if_pos (by simp [powered, loading])

/-- Beside the links, loading is the same with the image refused or not (R177). -/
theorem State.completeLoad_spec (s : State) :
    s.completeLoad.loading = false ∧ s.completeLoad.settings = s.flash.image ∧ s.completeLoad.imageCopy = s.flash.image ∧
      s.completeLoad.flash = s.flash ∧ s.completeLoad.profiles = loadedProfiles s.flash.image.profile ∧
      s.completeLoad.evidence =
        s.evidence.create { outlet := none, stamp := s.time.air, body := .profileApplied 1 none false } ∧
      { s.completeLoad with loading := s.loading, settings := s.settings, imageCopy := s.imageCopy, profiles := s.profiles,
                            outlets := s.outlets, links := s.links, evidence := s.evidence } = s := by
  unfold State.completeLoad
  split <;> exact ⟨rfl, rfl, rfl, rfl, rfl, rfl, rfl⟩

theorem State.completeLoad_link (s : State) (l : Link) :
    s.completeLoad.link l =
      if s.flash.refused = true then
        { s.link l with mask := s.flash.image.masks.get l, flags := { (s.link l).flags with settings := true }, cause := some .defaults }
      else { s.link l with mask := s.flash.image.masks.get l } := by
  unfold State.completeLoad
  split <;> cases l <;> rfl

/-- Settles O57: the judged image is the only choice there is. -/
theorem loadCompletes : Obligations.LoadCompletes := by
  intro s powered loading valid g
  have judged : valid = s.flash.judge.toOption := by
    simp only [valid]
    cases s.flash with
    | incomplete => rfl
    | stored bytes crc =>
      rw [Flash.judge]
      dsimp only
      by_cases sum : crc32 bytes = crc
      · rw [if_pos sum, if_pos sum]
        cases read : readImage bytes with
        | none =>
          rw [judgeImage_of_none read]
          rfl
        | some g =>
          cases refusal : g.refusal with
          | none =>
            rw [judgeImage_of_valid read refusal]
            exact if_pos refusal
          | some x =>
            rw [judgeImage_of_refused read refusal]
            exact if_neg (by simp [refusal])
      · rw [if_neg sum, if_neg sum]
        rfl
  have image : s.flash.image = g := (s.flash.image_eq.trans (congrArg (Option.getD · defaultImage) judged.symm) :)
  obtain ⟨load, settings, copy, flash, profiles, evidence, frame⟩ := s.completeLoad_spec
  rw [image] at settings copy profiles
  refine ⟨_, exec_settingsLoadComplete_of_loading powered loading, load, settings, copy, flash, profiles, fun o => ?_, fun l => ?_,
    evidence, ?_⟩
  · rw [State.refresh_outlet, State.completeLoad_outlet, State.outletSettings, settings]
    rfl
  · intro p
    rw [State.refresh_link, State.completeLoad_link, image]
    by_cases refused : s.flash.refused = true
    · rw [if_pos refused]
      exact (if_pos (judged.trans ((s.flash.refused_iff).mp refused))).symm
    · rw [if_neg refused]
      exact (if_neg fun none => refused ((s.flash.refused_iff).mpr (judged.symm.trans none))).symm
  · exact frame

end Sys2Proof.Machine
end

section
/-! A frame that is no boundary: its count, and the tests of FOLLOW and of overrun after it (R33, R42, R49). -/

namespace Sys2Proof.Machine

/-! ### The test of a FOLLOW head (R42) -/

theorem State.followDue_iff {s : State} {o : OutletId} {c : Current} (current : s.current o = some c) :
    s.followDue o = true ↔ c.decl.duration ≠ 0 ∧ c.decl.duration ≤ c.frameCount := by
  simp [State.followDue, current]

theorem State.testFollow_of_stays {s : State} {o : OutletId}
    (stays : ∀ d : Declaration, s.head o = some d → d.start = some .follow → ¬s.followDue o = true) : s.testFollow o = s := by
  unfold State.testFollow
  cases head : s.head o with
  | none => rfl
  | some d => exact if_neg fun due => stays d head due.1 due.2

theorem State.testFollow_of_free {s : State} {o : OutletId} {d : Declaration} (head : s.head o = some d)
    (follow : d.start = some .follow) (due : s.followDue o = true) (free : (s.outlet o).sched.armed = none) :
    s.testFollow o = s.armHead o d .nextFrame .follow false := by
  unfold State.testFollow
  rw [head]
  exact (if_pos ⟨follow, due⟩).trans (if_neg (by simp [free]))

theorem State.testFollow_of_occupied {s : State} {o : OutletId} {d : Declaration} (head : s.head o = some d)
    (follow : d.start = some .follow) (due : s.followDue o = true) (occupied : (s.outlet o).sched.armed.isSome = true) :
    s.testFollow o = s.setWaiting o .follow := by
  unfold State.testFollow
  rw [head]
  exact (if_pos ⟨follow, due⟩).trans (if_pos occupied)

/-! ### The schedule after the frame -/

/-- A schedule with a frame counted into its current segment and its open break (R33, R51). -/
def Sched.counted (q : Sched) (a : Arrival) : Sched :=
  { q with current := q.current.map fun c => c.count a, brk := q.brk.map fun b => { b with lastStamp := a.stamp, lastRfn := a.rfn } }

theorem State.countFrame_sched (s : State) (o : OutletId) (a : Arrival) :
    ((s.countFrame o a).outlet o).sched = (s.outlet o).sched.counted a :=
  State.modSched_sched ..

/-- After a frame's count and the FOLLOW test the overrun test alone is left, and it changes the marks of the current segment. -/
theorem State.schedule_of_counted {s : State} {o : OutletId} {a : Arrival} {c : Current} (current : s.current o = some c)
    (due : s.dueAt o a.stamp = none) :
    ((s.schedule o false a).outlet o).sched =
      { (((s.countFrame o a).testFollow o).outlet o).sched with
        current := some ((c.count a).marked (decide ((c.decl.duration ≠ 0 ∧
          c.decl.duration + (s.profileOf c.version).overrunGrace ≤ (c.count a).frameCount) ∧
          (((s.countFrame o a).testFollow o).outlet o).sched.armed = none))) } := by
  rw [State.schedule_of_frame due]
  have counted : ((s.countFrame o a).outlet o).sched.current = some (c.count a) := by
    rw [State.countFrame_sched, Sched.counted]
    exact congrArg (Option.map fun c => c.count a) current
  have still := (State.testFollow_arms (s.countFrame o a) o).frame.1.trans counted
  have profiles : ((s.countFrame o a).testFollow o).profiles = s.profiles :=
    ((Spreads.modSched (R := fun _ _ => True) s trivial _).trans (.testFollow _ trivial)).profiles
  have grace : ((s.countFrame o a).testFollow o).profileOf c.version = s.profileOf c.version := by
    unfold State.profileOf
    rw [profiles]
  rw [State.testOverrun_sched still, State.overruns]
  simp only [show (c.count a).version = c.version from rfl, show (c.count a).decl = c.decl from rfl, grace, and_assoc]

/-- What the FOLLOW test makes of the slot and the queue after the count (R42). -/
theorem State.testFollow_counted {s : State} {o : OutletId} {c : Current} (a : Arrival) (current : s.current o = some c) :
    let q := (s.outlet o).sched
    let r := (((s.countFrame o a).testFollow o).outlet o).sched
    let reached : Prop := c.decl.duration ≠ 0 ∧ c.decl.duration ≤ (c.count a).frameCount
    (∀ (d : Declaration) (rest : List Declaration), q.queue = d :: rest → d.start = some .follow → reached →
      (q.armed = none →
        r.armed = some { decl := d, boundary := .nextFrame, cause := .follow, armStamp := s.time.air, lateStart := false } ∧
        r.queue = rest ∧ r.waiting = none) ∧
      (q.armed.isSome = true → r.armed = q.armed ∧ r.queue = q.queue ∧ r.waiting = some .follow)) ∧
    ((∀ d : Declaration, q.queue.head? = some d → d.start = some .follow → ¬reached) →
      r.armed = q.armed ∧ r.queue = q.queue ∧ r.waiting = q.waiting) := by
  intro q r reached
  have counted := s.countFrame_sched o a
  have due : (s.countFrame o a).followDue o = true ↔ reached := State.followDue_iff (by
    rw [State.current, counted, Sched.counted]
    exact congrArg (Option.map fun c => c.count a) current)
  have head : (s.countFrame o a).head o = q.queue.head? := by rw [State.head, counted, Sched.counted]
  refine ⟨fun d rest queue follow passed => ?_, fun stays => ?_⟩
  · have first : (s.countFrame o a).head o = some d := by rw [head, queue, List.head?_cons]
    refine ⟨fun free => ?_, fun occupied => ?_⟩
    · have slot : ((s.countFrame o a).outlet o).sched.armed = none := by rw [counted]; exact free
      have after : r = (q.counted a).arm d .nextFrame .follow s.time.air false := by
        simp only [r]
        rw [State.testFollow_of_free first follow (due.mpr passed) slot, State.armHead_sched, counted]
        rfl
      rw [after]
      exact ⟨rfl, congrArg List.tail queue, rfl⟩
    · have slot : ((s.countFrame o a).outlet o).sched.armed.isSome = true := by rw [counted]; exact occupied
      have after : r = { q.counted a with waiting := some .follow } := by
        simp only [r]
        rw [State.testFollow_of_occupied first follow (due.mpr passed) slot, State.setWaiting, State.modSched_sched, counted]
      rw [after]
      exact ⟨rfl, rfl, rfl⟩
  · have after : r = q.counted a := by
      simp only [r]
      rw [State.testFollow_of_stays fun d first follow passed => stays d (head.symm.trans first) follow (due.mp passed), counted]
    rw [after]
    exact ⟨rfl, rfl, rfl⟩

/-! ### The arrival -/

/-- The schedule after an arrival is the one that the Scheduler leaves. -/
theorem State.arrive_schedule (s : State) (o : OutletId) (f : Treated) (order : List Consumer) :
    ((s.arrive o f order).outlet o).sched =
      (((s.arrived o f).schedule o ((s.outlet o).intake.state == .waiting) (s.handOff o f).arrival).outlet o).sched := by
  rw [State.arrive_sched, State.takeFrame_eq]

/-- A frame is absent for the Scheduler where it is not well formed or carries no audio (R33). -/
theorem treat_absent (o : OutletId) (bytes : Bytes) :
    (∀ f : AirFrame, readFrame bytes = some f →
      ((treat o bytes).absent || (treat o bytes).corrupt) = decide (f.layout = .none ∨ f.sampleCount = 0)) ∧
      (readFrame bytes = none → ((treat o bytes).absent || (treat o bytes).corrupt) = true) := by
  refine ⟨fun f read => ?_, fun none => ?_⟩
  · rw [treat_of_some read]
    exact Bool.or_false _
  · rw [treat_of_none none]
    rfl

/-- The time flag of a frame: air time is not LOCKED (R9). -/
theorem untimed_eq (ref : RefState) : (ref == .holdover || ref == .unset) = (ref != .locked) := by
  cases ref <;> rfl

theorem Current.marked_eq (c : Current) (past empty : Prop) [Decidable past] [Decidable empty] (reported : Bool)
    (same : reported = c.overrunReported) :
    c.marked (decide (past ∧ empty)) =
      { c with overrun := c.overrun || decide (past ∧ empty ∧ reported = false)
               overrunReported := c.overrunReported || decide (past ∧ empty) } := by
  subst same
  unfold Current.marked
  cases c.overrunReported <;> simp

/-- Settles O13: the count comes first, then the FOLLOW test, and the overrun test sees the slot that it left. -/
theorem arrivalCountsFrame : Obligations.ArrivalCountsFrame := by
  intro s o bytes c powered on current none count due absent
  have state : (s.outlet o).intake.state ≠ .off := by
    intro off
    rcases on with h | h <;> simp [off] at h
  have first : (((s.useFree 1).outlet o).intake.state == .waiting) = false := by
    rcases on with h | h <;> simp [State.useFree_outlet, h]
  refine ⟨_, exec_arrival_of_on powered state bytes, ?_⟩
  rw [State.current, State.refresh_outlet, State.arrive_schedule, first]
  have arrival : ((s.useFree 1).handOff o (treat o bytes)).arrival =
      { stamp := s.time.air, rfn := (s.outlet o).intake.rfn, untimed := s.time.ref != .locked, absent := absent } := by
    have noAudio : ((treat o bytes).absent || (treat o bytes).corrupt) = absent := by
      simp only [absent]
      cases read : readFrame bytes with
      | some f => exact (treat_absent o bytes).1 f read
      | none => exact (treat_absent o bytes).2 read
    rw [← noAudio, ← untimed_eq]
    rfl
  rw [arrival]
  have spread := (Spreads.useFree (R := fun p x => p = o ∧ x = .intake) s 1).trans (.arrived _ o (treat o bytes))
  have sched := spread.sched (o := o) (by simp)
  have profiles := spread.profiles
  have time := spread.time
  generalize (s.useFree 1).arrived o (treat o bytes) = u at sched profiles time
  generalize arrived : Arrival.mk s.time.air (s.outlet o).intake.rfn (s.time.ref != .locked) absent = a
  have now : u.current o = some c := (congrArg Sched.current sched).trans current
  have stays : u.dueAt o a.stamp = .none := by
    rw [State.dueAt_eq_none, sched, ← arrived]
    exact none
  have follow := State.testFollow_counted a now
  rw [State.schedule_of_counted now stays]
  rw [sched, time] at follow
  generalize (((u.countFrame o a).testFollow o).outlet o).sched = r at follow
  have grace : u.profileOf c.version = s.profileOf c.version := by
    unfold State.profileOf
    rw [profiles]
  refine ⟨?_, ?_⟩
  · dsimp only
    rw [Current.marked_eq (c.count a) _ _ c.overrunReported rfl, grace, ← arrived]
    rfl
  · subst arrived
    exact follow

end Sys2Proof.Machine
end

section
/-! The closing slots of an outlet: what leaves them as they are, and how a boundary's frame fills and empties them (R45, R53, R70,
R73, R99, R105). -/

namespace Sys2Proof.Machine

/-! ### What leaves the closing slots as they are -/

/-- The closing slots of an outlet are as they were. -/
def KeepsSlots (o : OutletId) (s t : State) : Prop :=
  (t.outlet o).verdict.segSlot = (s.outlet o).verdict.segSlot ∧ (t.outlet o).verdict.brkSlot = (s.outlet o).verdict.brkSlot

section
variable {o : OutletId}

theorem KeepsSlots.refl (s : State) : KeepsSlots o s s := ⟨rfl, rfl⟩

theorem KeepsSlots.trans {s t u : State} (h : KeepsSlots o s t) (k : KeepsSlots o t u) : KeepsSlots o s u :=
  ⟨k.1.trans h.1, k.2.trans h.2⟩

theorem KeepsSlots.of_verdict {s t : State} (h : (t.outlet o).verdict = (s.outlet o).verdict) : KeepsSlots o s t :=
  ⟨congrArg VerdictUnit.segSlot h, congrArg VerdictUnit.brkSlot h⟩

/-- What spreads over other parts than the verdict unit leaves the slots. -/
theorem KeepsSlots.of_spreads {s t : State} (h : Spreads (fun _ x => x ≠ .verdict) s t) : KeepsSlots o s t :=
  .of_verdict (h.verdict (by simp))

theorem KeepsSlots.modVerdict (s : State) {f : VerdictUnit → VerdictUnit}
    (seg : (f (s.outlet o).verdict).segSlot = (s.outlet o).verdict.segSlot)
    (brk : (f (s.outlet o).verdict).brkSlot = (s.outlet o).verdict.brkSlot) : KeepsSlots o s (s.modVerdict o f) := by
  unfold KeepsSlots
  rw [State.modVerdict, State.outlet_modOutlet_same]
  exact ⟨seg, brk⟩

theorem KeepsSlots.setBreach (s : State) {f : VerdictUnit → VerdictUnit}
    (seg : (f (s.outlet o).verdict).segSlot = (s.outlet o).verdict.segSlot)
    (brk : (f (s.outlet o).verdict).brkSlot = (s.outlet o).verdict.brkSlot) : KeepsSlots o s (s.setBreach o f) := by
  unfold State.setBreach
  dsimp only
  have moved : KeepsSlots o s (s.modVerdict o fun _ => (f (s.outlet o).verdict).follow) := .modVerdict s seg brk
  split
  · exact moved.trans (.of_spreads (.raiseBoth _ _))
  · exact moved

theorem KeepsSlots.countExcursion (s : State) (l : Int) (stamp : AirTime) : KeepsSlots o s (s.countExcursion o l stamp) := by
  unfold State.countExcursion
  split
  · split
    · exact .refl s
    · split
      · exact (KeepsSlots.of_spreads (.create s _)).trans (.modVerdict _ rfl rfl)
      · exact .modVerdict s rfl rfl
  · exact .refl s

theorem KeepsSlots.fullSubBlock (s : State) (stamp : AirTime) : KeepsSlots o s (s.fullSubBlock o stamp) := by
  have joined : KeepsSlots o s (s.completeSubBlock o) := .of_spreads (.completeSubBlock s nofun)
  unfold State.fullSubBlock
  dsimp only
  split
  · exact joined
  · have told := fun (g : Loud → Loud) (v : Int) (n : Nat) =>
      (joined.trans (.of_spreads (.modLoud (o := o) _ nofun g))).trans (KeepsSlots.setBreach (o := o) _ (f := fun w =>
        { w with shortTermOver := ((s.completeSubBlock o).modLoud o g).shortTermBreach o v n }) rfl rfl)
    split
    · exact told _ _ _
    · exact ((told _ _ _).trans (.of_spreads ((Spreads.useFree _ 1).trans (.modLoud _ nofun _)))).trans (.countExcursion _ _ _)

theorem KeepsSlots.gatherFrame (s : State) (stamp : AirTime) (xs : List (Six Int)) : KeepsSlots o s (s.gatherFrame o stamp xs) := by
  unfold State.gatherFrame
  dsimp only
  have gathered : ∀ (u : State) (f : Loud → Loud), KeepsSlots o u (u.modLoud o f) := fun u f => .of_spreads (.modLoud u nofun f)
  split
  · exact gathered s _
  · exact ((gathered s _).trans (.fullSubBlock _ _)).trans (gathered _ _)

theorem KeepsSlots.modSubs (s : State) (f : Subs → Subs) : KeepsSlots o s (s.modSubs o f) := .of_spreads (.modSubs s nofun f)

theorem KeepsSlots.closeGap (s : State) (cause : GapCause) (stop : AirTime) : KeepsSlots o s (s.closeGap o cause stop) := by
  unfold State.closeGap
  split
  · exact (((KeepsSlots.modSubs s _).trans (.of_spreads (.create _ _))).trans (.setBreach _ rfl rfl)).trans (.modSubs _ _)
  · exact .refl s

theorem KeepsSlots.passGap (s : State) (start : AirTime) (rfn : Option Rfn) : KeepsSlots o s (s.passGap o start rfn) := by
  unfold State.passGap State.runTimer State.openGap
  split
  · exact .modSubs s _
  · split
    · split
      · exact (KeepsSlots.modSubs s _).trans (.setBreach _ rfl rfl)
      · exact .modSubs s _
    · exact .refl s
    · exact .refl s

theorem KeepsSlots.takeSubUnit (s : State) (c : Current) (stamp : AirTime) (u : SubUnit) :
    KeepsSlots o s (s.takeSubUnit o c stamp u) := by
  unfold State.takeSubUnit
  split
  · exact .refl s
  · split
    · exact .refl s
    · split
      · exact (KeepsSlots.closeGap s _ _).trans (.modSubs _ _)
      · exact .modSubs s _

theorem KeepsSlots.foldl {α : Type} {f : State → α → State} (h : ∀ (u : State) (a : α), KeepsSlots o u (f u a)) (xs : List α)
    (s : State) : KeepsSlots o s (xs.foldl f s) := by
  induction xs generalizing s with
  | nil => exact .refl s
  | cons x xs ih => exact (h s x).trans (ih _)

theorem KeepsSlots.checkSubtitles (s : State) (stamp : AirTime) (rfn : Rfn) (units : List SubUnit) :
    KeepsSlots o s (s.checkSubtitles o stamp rfn units) := by
  unfold State.checkSubtitles
  split
  · exact .refl s
  · exact (((KeepsSlots.modSubs s _).trans (.foldl (fun u x => .takeSubUnit u _ _ x) _ _)).trans (.modSubs _ _)).trans (.passGap _ _ _)

theorem KeepsSlots.announce (s : State) (d : Declaration) (late : Bool) (stamp : AirTime) (rfn : Rfn) :
    KeepsSlots o s (s.announce o d late stamp rfn) := by
  unfold State.announce State.loadSubs State.loadExcursions State.clearShortTerm
  exact ((KeepsSlots.of_spreads (((Spreads.modSched s nofun _).trans (.modLoud _ nofun _)).trans (.modSubs _ nofun _))).trans
    (.modVerdict _ rfl rfl)).trans (.setBreach _ rfl rfl)

/-- The consumers beside the Loudness Engine leave the slots. -/
theorem HandOff.consume_keepsSlots (h : HandOff) (s : State) {x : Consumer} (other : x ≠ .loudness) :
    KeepsSlots h.outlet s (h.consume s x) := by
  cases x with
  | loudness => exact absurd rfl other
  | subtitles => exact .checkSubtitles s _ _ _
  | writer => exact .of_spreads (.record s nofun _)

/-- A break that opens, continues or closes leaves the segment's slot. -/
theorem State.stepBreak_segSlot (s : State) (o : OutletId) (stamp : AirTime) :
    ((s.stepBreak o stamp).outlet o).verdict.segSlot = (s.outlet o).verdict.segSlot := by
  unfold State.stepBreak
  split
  · rfl
  · split
    · split
      · exact (KeepsSlots.of_spreads (o := o) ((Spreads.modSched s nofun _).trans (.modLoud _ nofun _))).1
      · rfl
    · split
      · exact (KeepsSlots.of_spreads (o := o) (Spreads.modSched s nofun _)).1
      · unfold State.closeBreak
        split
        · rfl
        · rw [State.outlet_modOutlet_same]

theorem State.begin_segSlot (s : State) (o : OutletId) (d : Declaration) (late : Bool) (a : Arrival) :
    ((s.begin o d late a).outlet o).verdict.segSlot = (s.outlet o).verdict.segSlot := by
  unfold State.begin
  rw [(KeepsSlots.of_spreads (o := o) (Spreads.countFrame _ nofun a)).1, State.stepBreak_segSlot,
    (KeepsSlots.announce s d late a.stamp a.rfn).1]

end

/-! ### Verdicts empty the slots (R105) -/

section
variable {o : OutletId}

theorem State.judgeSegment_verdict (s : State) (o : OutletId) (c : ClosedSegment) (peak : Int) :
    ((s.judgeSegment o c peak).outlet o).verdict = { (s.outlet o).verdict with segSlot := none } := by
  unfold State.judgeSegment
  dsimp only
  rw [State.modVerdict, State.outlet_modOutlet_same]
  have before := fun (failed : Bool) (origin : HoldOrigin) (a b : AirTime) (body : EvidenceBody) =>
    (((Spreads.useFree (R := fun _ _ => False) s 2).trans (.autoHold _ failed origin o a b)).trans (.deliver _ o c.stamp body)).verdict
      (o := o) id
  exact congrArg (fun v : VerdictUnit => { v with segSlot := none }) (before _ _ _ _ _)

theorem State.judgeBreak_verdict (s : State) (o : OutletId) (c : ClosedBreak) :
    ((s.judgeBreak o c).outlet o).verdict = { (s.outlet o).verdict with brkSlot := none } := by
  unfold State.judgeBreak
  dsimp only
  rw [State.modVerdict, State.outlet_modOutlet_same]
  have before := fun (failed : Bool) (origin : HoldOrigin) (a b : AirTime) (body : EvidenceBody) =>
    (((Spreads.useFree (R := fun _ _ => False) s 2).trans (.autoHold _ failed origin o a b)).trans (.deliver _ o c.stamp body)).verdict
      (o := o) id
  exact congrArg (fun v : VerdictUnit => { v with brkSlot := none }) (before _ _ _ _ _)

theorem State.judgeSegment_raises (s : State) (o : OutletId) (c : ClosedSegment) (peak : Int) (l : Link) :
    ((s.judgeSegment o c peak).link l).flags.has .verdict = true :=
  State.raiseBoth_raises _ .verdict l

theorem State.formVerdict_verdict_of_ne (s : State) {r : SlotRef} {o : OutletId} (h : r.outlet ≠ o) :
    ((s.formVerdict r).outlet o).verdict = (s.outlet o).verdict :=
  (Spreads.formVerdict (R := fun p x => p = r.outlet ∧ x = .verdict) s r ⟨rfl, rfl⟩).verdict fun k => h k.1.symm

/-- Another verdict leaves the segment's slot. -/
theorem State.formVerdict_segSlot (s : State) {r : SlotRef} (h : r ≠ .segment o) :
    ((s.formVerdict r).outlet o).verdict.segSlot = (s.outlet o).verdict.segSlot := by
  by_cases here : r.outlet = o
  · cases r with
    | segment p => exact absurd (congrArg SlotRef.segment here) h
    | brk p =>
      obtain rfl : p = o := here
      unfold State.formVerdict
      dsimp only
      split
      · split
        · rw [State.judgeBreak_verdict]
        · rfl
      · rfl
  · rw [State.formVerdict_verdict_of_ne s here]

/-- Another verdict leaves the break's slot. -/
theorem State.formVerdict_brkSlot (s : State) {r : SlotRef} (h : r ≠ .brk o) :
    ((s.formVerdict r).outlet o).verdict.brkSlot = (s.outlet o).verdict.brkSlot := by
  by_cases here : r.outlet = o
  · cases r with
    | brk p => exact absurd (congrArg SlotRef.brk here) h
    | segment p =>
      obtain rfl : p = o := here
      unfold State.formVerdict
      dsimp only
      split
      · split
        · rw [State.judgeSegment_verdict]
        · rfl
      · rfl
  · rw [State.formVerdict_verdict_of_ne s here]

/-- A verdict fills no slot. -/
theorem State.formVerdict_brkSlot_none {s : State} (none : (s.outlet o).verdict.brkSlot = none) (r : SlotRef) :
    ((s.formVerdict r).outlet o).verdict.brkSlot = .none := by
  by_cases here : r = .brk o
  · subst here
    unfold State.formVerdict
    dsimp only
    rw [none]
    exact none
  · rw [State.formVerdict_brkSlot s here]
    exact none

theorem State.readySlots_of_segment {s : State} {c : ClosedSegment} {peak : Int} (slot : (s.outlet o).verdict.segSlot = some c)
    (final : c.finalPeak = some peak) :
    s.readySlots o =
      .segment o :: if ((s.outlet o).verdict.brkSlot.map fun c => c.finalPeak).getD false then [.brk o] else [] := by
  simp [State.readySlots, slot, final]

/-- The verdict of the closed segment is formed once among those of its outlet: its slot empties, and VERDICT is raised. -/
theorem State.formVerdicts_segment {s : State} {c : ClosedSegment} {peak : Int} (slot : (s.outlet o).verdict.segSlot = some c)
    (final : c.finalPeak = some peak) :
    ((s.formVerdicts [o]).outlet o).verdict.segSlot = none ∧ ∀ l : Link, ((s.formVerdicts [o]).link l).flags.has .verdict = true := by
  have once : (s.shuffled ([o].flatMap s.readySlots)).count (.segment o) = 1 := by
    rw [(State.shuffled_perm s _).count_eq, List.flatMap_singleton, State.readySlots_of_segment slot final, List.count_cons_self]
    split <;> rfl
  refine foldl_once (f := State.formVerdict) (P := fun u : State => (u.outlet o).verdict.segSlot = some c)
    (Q := fun u : State => (u.outlet o).verdict.segSlot = none ∧ ∀ l : Link, (u.link l).flags.has .verdict = true) once
    (fun u r other h => (u.formVerdict_segSlot other).trans h) (fun u h => ?_) (fun u r other h => ⟨?_, fun l => ?_⟩) slot
  · rw [State.formVerdict_of_segment h final]
    exact ⟨congrArg VerdictUnit.segSlot (u.judgeSegment_verdict o c peak), u.judgeSegment_raises o c peak⟩
  · exact (u.formVerdict_segSlot other).trans h.1
  · exact (Spreads.formVerdict (R := fun _ _ => True) u r trivial).flags l _ (h.2 l)

/-- The slot of a closed break is empty once the verdicts are formed, where it had its last maximum or was empty before. -/
theorem State.formVerdicts_brk {s : State} (ready : ∀ b : ClosedBreak, (s.outlet o).verdict.brkSlot = some b → b.finalPeak = true) :
    ((s.formVerdicts [o]).outlet o).verdict.brkSlot = none := by
  cases slot : (s.outlet o).verdict.brkSlot with
  | none =>
    have stays : ∀ (rs : List SlotRef) (u : State), (u.outlet o).verdict.brkSlot = none →
        ((rs.foldl State.formVerdict u).outlet o).verdict.brkSlot = none := by
      intro rs
      induction rs with
      | nil => exact fun _ h => h
      | cons r rs ih => exact fun u h => ih _ (State.formVerdict_brkSlot_none h r)
    exact stays _ _ slot
  | some b =>
    have final := ready b slot
    have once : (s.shuffled ([o].flatMap s.readySlots)).count (.brk o) = 1 := by
      rw [(State.shuffled_perm s _).count_eq, List.flatMap_singleton, State.readySlots, slot, List.count_append]
      simp only [Option.map_some, Option.getD_some, final, if_true]
      split <;> simp
    refine foldl_once (f := State.formVerdict) (P := fun u : State => (u.outlet o).verdict.brkSlot = some b)
      (Q := fun u : State => (u.outlet o).verdict.brkSlot = none) once
      (fun u r other h => (u.formVerdict_brkSlot other).trans h) (fun u h => ?_)
      (fun u r _ h => State.formVerdict_brkSlot_none h r) slot
    rw [State.formVerdict_of_brk h final]
    exact congrArg VerdictUnit.brkSlot (u.judgeBreak_verdict o b)

end

/-! ### The frame of a boundary (R70, R99) -/

/-- The final maximum reaches the segment's slot, and the slot of a break that closed with it (R70, R73). -/
theorem Outlet.enterFinal_slots (t : Outlet) (c : ClosedSegment) (code : Int) :
    (∃ peak : Int, (t.enterFinal c code).verdict.segSlot = some { c with finalPeak := some peak }) ∧
      (c.member = true → ∀ b : ClosedBreak, (t.enterFinal c code).verdict.brkSlot = some b → b.finalPeak = true) := by
  unfold Outlet.enterFinal
  cases member : c.member with
  | false => exact ⟨⟨_, rfl⟩, nofun⟩
  | true =>
    cases slot : t.verdict.brkSlot with
    | none =>
      refine ⟨⟨_, rfl⟩, fun _ b h => ?_⟩
      cases slot.symm.trans h
    | some x =>
      refine ⟨⟨_, rfl⟩, fun _ b h => ?_⟩
      cases h
      rfl

/-- What the Loudness Engine delivers at a boundary: the closed segment's verdict, and its break's where it was a member. -/
structure Delivered (o : OutletId) (member : Bool) (t : State) : Prop where
  segment : (t.outlet o).verdict.segSlot = none
  raised : ∀ l : Link, (t.link l).flags.has .verdict = true
  brk : member = true → (t.outlet o).verdict.brkSlot = none

theorem Delivered.kept {o : OutletId} {member : Bool} {s t : State} (h : Delivered o member s) (slots : KeepsSlots o s t)
    {R : OutletId → Part → Prop} (spread : Spreads R s t) : Delivered o member t :=
  ⟨slots.1.trans h.segment, fun l => spread.flags l _ (h.raised l), fun m => slots.2.trans (h.brk m)⟩

/-- A slot that waits for its final maximum gets it with the first indices of the next frame, and its verdict is formed. -/
theorem State.measure_delivers {s : State} {o : OutletId} {c : ClosedSegment} (slot : (s.outlet o).verdict.segSlot = some c)
    (waiting : c.finalPeak = none) (stamp : AirTime) (xs : List (Six Int)) : Delivered o c.member (s.measure o stamp xs) := by
  have awaits : s.awaitsFinal o = true := by simp [State.awaitsFinal, slot, waiting]
  unfold State.measure
  simp only [awaits, if_true]
  have tapped : (((s.tapSamples o (xs.take 4)).1).outlet o).verdict = (s.outlet o).verdict :=
    (Spreads.tapSamples (R := fun _ x => x = .loud) s rfl _).verdict nofun
  generalize (s.tapSamples o (xs.take 4)).2 = code
  generalize (s.tapSamples o (xs.take 4)).1 = u at tapped
  have there : (u.outlet o).verdict.segSlot = some c := by rw [tapped, slot]
  have sent : u.sendFinal o code = u.modOutlet o fun t => t.enterFinal c code := by
    simp [State.sendFinal, there, waiting]
  obtain ⟨⟨peak, final⟩, members⟩ := (u.outlet o).enterFinal_slots c code
  rw [← State.outlet_modOutlet_same u o fun t => t.enterFinal c code, ← sent] at final members
  obtain ⟨segment, raised⟩ := State.formVerdicts_segment final rfl
  have delivered : Delivered o c.member ((u.sendFinal o code).formVerdicts [o]) :=
    ⟨segment, raised, fun m => State.formVerdicts_brk (members m)⟩
  generalize (u.sendFinal o code).formVerdicts [o] = v at delivered
  have rest : Spreads (fun _ x => x = .loud) v (((v.tapSamples o (xs.drop 4)).1).enterPeak o (v.tapSamples o (xs.drop 4)).2) :=
    (Spreads.tapSamples v rfl _).trans (.enterPeak _ rfl _)
  refine (delivered.kept (.of_verdict (rest.verdict nofun)) rest).kept (.gatherFrame _ _ _) (R := fun _ _ => True) ?_
  exact .gatherFrame _ trivial trivial _ _

/-- An empty slot stays empty where the Loudness Engine takes a frame. -/
theorem State.measure_segSlot_none {s : State} {o : OutletId} (none : (s.outlet o).verdict.segSlot = none) (stamp : AirTime)
    (xs : List (Six Int)) : ((s.measure o stamp xs).outlet o).verdict.segSlot = .none := by
  have awaits : s.awaitsFinal o = false := by simp [State.awaitsFinal, none]
  unfold State.measure
  simp only [awaits, Bool.false_eq_true, if_false]
  have tapped : Spreads (fun _ x => x = .loud) s (((s.tapSamples o xs).1).enterPeak o (s.tapSamples o xs).2) :=
    (Spreads.tapSamples s rfl _).trans (.enterPeak _ rfl _)
  exact ((KeepsSlots.of_verdict (tapped.verdict nofun)).trans (.gatherFrame _ _ _)).1.trans none

/-- The three consumers deliver the verdict of a slot that waits for its final maximum (R14). -/
theorem HandOff.consumers_deliver (h : HandOff) {s : State} {c : ClosedSegment}
    (slot : (s.outlet h.outlet).verdict.segSlot = some c) (waiting : c.finalPeak = none) (n : Nat) :
    Delivered h.outlet c.member ((consumerOrder n).foldl h.consume s) := by
  refine foldl_once (f := h.consume) (P := fun u : State => (u.outlet h.outlet).verdict.segSlot = some c)
    (Q := Delivered h.outlet c.member) (consumerOrder_once n .loudness)
    (fun u x other there => (h.consume_keepsSlots u other).1.trans there)
    (fun u there => State.measure_delivers there waiting _ _) (fun u x other done => ?_) slot
  exact done.kept (h.consume_keepsSlots u other) (.consume u h (R := fun _ _ => True) trivial trivial trivial trivial x)

theorem HandOff.consumers_segSlot_none (h : HandOff) {s : State} (none : (s.outlet h.outlet).verdict.segSlot = none)
    (order : List Consumer) : ((order.foldl h.consume s).outlet h.outlet).verdict.segSlot = .none := by
  induction order generalizing s with
  | nil => exact none
  | cons x order ih =>
    refine ih ?_
    by_cases loudness : x = .loudness
    · subst loudness
      exact State.measure_segSlot_none none _ _
    · exact (h.consume_keepsSlots s loudness).1.trans none

/-- The slot that a segment closes into waits for its final maximum (R45, R70). -/
theorem State.closeSegment_segSlot {s : State} {o : OutletId} {c : Current} (current : s.current o = some c) (close : CloseCause)
    (gap : GapCause) (stamp : AirTime) :
    ∃ k : ClosedSegment, ((s.closeSegment o close gap stamp).outlet o).verdict.segSlot = some k ∧ k.finalPeak = none ∧
      k.member = (s.outlet o).sched.brk.isSome := by
  unfold State.closeSegment
  simp only [current]
  rw [State.outlet_modOutlet_same]
  refine ⟨_, rfl, rfl, ?_⟩
  exact congrArg (fun q : Sched => q.brk.isSome) ((s.ended_spreads o close gap stamp).sched (by simp))

end Sys2Proof.Machine
end

section
/-! Boundaries and first frames: the armed segment becomes current, its break is stepped, and the closed one's verdict is delivered
(R43 to R48, R51 to R53). -/

namespace Sys2Proof.Machine

/-! ### The armed segment made current -/

/-- An armed segment has become current on an outlet with an arrival. -/
structure Entered (s : State) (o : OutletId) (m : Armed) (a : Arrival) (t : State) : Prop where
  current : ∃ past : Bool, t.current o = some ((s.begun m.decl m.lateStart a).marked past)
  brk : BreakAfter s (s.newCurrent m.decl m.lateStart a.stamp a.rfn) a (s.outlet o).sched.brk (t.outlet o).sched.brk
  empty : (s.outlet o).sched.queue = [] →
    (t.outlet o).sched.armed = none ∧ ∀ l : Link, (t.link l).flags.has .queueEmpty = true

theorem Sched.Arms.armed_none {q r : Sched} (h : q.Arms r) (queue : q.queue = []) (armed : q.armed = none) : r.armed = none := by
  cases h with
  | same => exact armed
  | waiting w => exact armed
  | head first => simp [queue] at first

/-- The slot empties with no segment pending: QUEUE_EMPTY (R46). -/
theorem State.slotEmptied_raises {s : State} {o : OutletId} (queue : (s.outlet o).sched.queue = []) (l : Link) :
    ((s.slotEmptied o).link l).flags.has .queueEmpty = true := by
  unfold State.slotEmptied
  simp only [queue, List.isEmpty_nil, if_true]
  exact State.raiseBoth_raises s .queueEmpty l

theorem State.enterSegment_entered (s : State) (o : OutletId) (m : Armed) (a : Arrival) :
    Entered s o m a ((s.enterSegment o m a).testOverrun o a.stamp) := by
  obtain ⟨b, r, after, arms, sched⟩ := s.enterSegment_sched o m a
  obtain ⟨current, brk⟩ := arms.frame
  have now : (s.enterSegment o m a).current o = some (s.begun m.decl m.lateStart a) := (congrArg Sched.current sched).trans current
  have tested := State.testOverrun_sched now a.stamp
  refine ⟨⟨_, congrArg Sched.current tested⟩, ?_, fun queue => ⟨?_, fun l => ?_⟩⟩
  · rw [tested, sched]
    exact (brk : r.brk = b) ▸ after
  · rw [tested, sched]
    exact arms.armed_none queue rfl
  · refine (Spreads.testOverrun (R := fun _ _ => True) _ trivial a.stamp).flags l _ ?_
    rw [State.enterSegment_eq]
    obtain ⟨b, begun, -⟩ := (s.modSched o fun q => { q with armed := none }).begin_sched o m.decl m.lateStart a
    refine State.slotEmptied_raises ?_ l
    rw [begun, State.modSched_sched]
    exact queue

theorem State.newCurrent_congr {s t : State} (h : t.profiles = s.profiles) (d : Declaration) (late : Bool) (stamp : AirTime) (rfn : Rfn) :
    t.newCurrent d late stamp rfn = s.newCurrent d late stamp rfn := by
  unfold State.newCurrent State.undeclared State.latestVersion State.latestProfile
  rw [h]

/-- What comes before and leaves the profiles, the break and the queue does not matter. -/
theorem Entered.rebase {s u t : State} {o : OutletId} {m : Armed} {a : Arrival} (h : Entered u o m a t)
    (profiles : u.profiles = s.profiles) (brk : (u.outlet o).sched.brk = (s.outlet o).sched.brk)
    (queue : (u.outlet o).sched.queue = (s.outlet o).sched.queue) : Entered s o m a t := by
  obtain ⟨current, after, empty⟩ := h
  unfold State.begun at current
  rw [State.newCurrent_congr profiles] at current after
  rw [brk] at after
  rw [queue] at empty
  exact ⟨current, ⟨fun none opens => (after.opening none opens).trans (by rw [State.openBreak_congr profiles]), after.none,
    after.member, after.closing⟩, empty⟩

/-- What comes after and leaves the schedule does not matter. -/
theorem Entered.kept {s t u : State} {o : OutletId} {m : Armed} {a : Arrival} (h : Entered s o m a t) {R : OutletId → Part → Prop}
    (spread : Spreads R t u) (free : ¬R o .sched) : Entered s o m a u := by
  obtain ⟨current, after, empty⟩ := h
  have same := spread.sched free
  unfold State.current at current
  rw [← same] at current after empty
  exact ⟨current, after, fun queue => ⟨(empty queue).1, fun l => spread.flags l _ ((empty queue).2 l)⟩⟩

theorem Entered.refresh {s t : State} {o : OutletId} {m : Armed} {a : Arrival} (h : Entered s o m a t) : Entered s o m a t.refresh :=
  ⟨h.current, h.brk, fun queue => ⟨(h.empty queue).1, fun l => by rw [State.refresh_link]; exact (h.empty queue).2 l⟩⟩

theorem Delivered.refresh {o : OutletId} {member : Bool} {t : State} (h : Delivered o member t) : Delivered o member t.refresh :=
  ⟨h.segment, fun l => by rw [State.refresh_link]; exact h.raised l, h.brk⟩

/-! ### The arrival at a boundary and at a first frame -/

theorem State.enterSegment_segSlot (s : State) (o : OutletId) (m : Armed) (a : Arrival) :
    (((s.enterSegment o m a).testOverrun o a.stamp).outlet o).verdict.segSlot = (s.outlet o).verdict.segSlot := by
  rw [(KeepsSlots.of_spreads (o := o) (Spreads.testOverrun _ nofun a.stamp)).1, State.enterSegment_eq,
    (KeepsSlots.of_spreads (o := o) (Spreads.slotEmptied _ nofun)).1, State.begin_segSlot]
  exact (KeepsSlots.of_spreads (o := o) (Spreads.modSched s nofun _)).1

section
variable {s : State} {o : OutletId} {m : Armed}

/-- The frame of a boundary makes the armed segment current, and the closed segment's verdict is delivered (R43, R99). -/
theorem State.arrive_of_boundary {c : Current} (current : s.current o = some c) (state : (s.outlet o).intake.state ≠ .waiting)
    (due : s.dueAt o s.time.air = some m) (f : Treated) (n : Nat) :
    Entered s o m (s.handOff o f).arrival (s.arrive o f (consumerOrder n)) ∧
      Delivered o (s.outlet o).sched.brk.isSome (s.arrive o f (consumerOrder n)) := by
  have spread := Spreads.arrived s o f
  have sched := s.arrived_sched o f
  rw [State.arrive, State.takeFrame_eq, beq_eq_false_iff_ne.mpr state]
  have still : (s.arrived o f).dueAt o (s.handOff o f).arrival.stamp = some m := by
    rw [State.dueAt, sched]
    exact due
  have profiles := spread.profiles
  have now : (s.arrived o f).current o = some c := (congrArg Sched.current sched).trans current
  rw [State.schedule_of_boundary still]
  generalize s.arrived o f = u at sched profiles now
  have closed := u.closeSegment_sched o .next .segmentEnd (s.handOff o f).arrival.stamp
  have closedProfiles : (u.closeSegment o .next .segmentEnd (s.handOff o f).arrival.stamp).profiles = s.profiles :=
    (Spreads.closeSegment (R := fun _ _ => True) u trivial trivial trivial trivial _ _ _).profiles.trans profiles
  obtain ⟨k, slot, waiting, member⟩ := State.closeSegment_segSlot now .next .segmentEnd (s.handOff o f).arrival.stamp
  generalize u.closeSegment o .next .segmentEnd (s.handOff o f).arrival.stamp = v at closed closedProfiles slot
  have entered : Entered s o m (s.handOff o f).arrival ((v.enterSegment o m (s.handOff o f).arrival).testOverrun o
      (s.handOff o f).arrival.stamp) :=
    (v.enterSegment_entered o m _).rebase closedProfiles (by rw [closed, sched]) (by rw [closed, sched])
  have filled := (v.enterSegment_segSlot o m (s.handOff o f).arrival).trans slot
  generalize (v.enterSegment o m (s.handOff o f).arrival).testOverrun o (s.handOff o f).arrival.stamp = w at entered filled
  refine ⟨entered.kept (.consuming _ (s.handOff o f) _) (by simp), ?_⟩
  rw [← sched, ← member]
  exact HandOff.consumers_deliver (s.handOff o f) filled waiting n

/-- The first frame of a WAITING outlet makes the armed segment current where it is due (R47). -/
theorem State.arrive_of_armed (state : (s.outlet o).intake.state = .waiting) (due : s.dueAt o s.time.air = some m) (f : Treated)
    (order : List Consumer) :
    Entered s o m (s.handOff o f).arrival (s.arrive o f order) ∧
      ((s.outlet o).verdict.segSlot = none → ((s.arrive o f order).outlet o).verdict.segSlot = none) := by
  have spread := Spreads.arrived s o f
  have sched := s.arrived_sched o f
  rw [State.arrive, State.takeFrame_eq, beq_iff_eq.mpr state]
  have still : (s.arrived o f).dueAt o (s.handOff o f).arrival.stamp = some m := by
    rw [State.dueAt, sched]
    exact due
  have profiles := spread.profiles
  have verdict := spread.verdict (o := o) (by simp)
  rw [State.schedule_of_armed still]
  generalize s.arrived o f = v at sched profiles verdict
  have entered : Entered s o m (s.handOff o f).arrival ((v.enterSegment o m (s.handOff o f).arrival).testOverrun o
      (s.handOff o f).arrival.stamp) :=
    (v.enterSegment_entered o m _).rebase profiles (by rw [sched]) (by rw [sched])
  have kept := (v.enterSegment_segSlot o m (s.handOff o f).arrival).trans (congrArg VerdictUnit.segSlot verdict)
  generalize (v.enterSegment o m (s.handOff o f).arrival).testOverrun o (s.handOff o f).arrival.stamp = w at entered kept
  exact ⟨entered.kept (.consuming _ (s.handOff o f) _) (by simp), fun none =>
    HandOff.consumers_segSlot_none (s.handOff o f) (kept.trans none) order⟩

/-- The first frame of a WAITING outlet with no armed segment due makes an UNDECLARED one current (R48). -/
theorem State.arrive_of_undeclared (state : (s.outlet o).intake.state = .waiting) (due : s.dueAt o s.time.air = none) (f : Treated)
    (order : List Consumer) :
    ∃ past : Bool, (s.arrive o f order).current o = some ((s.begun s.undeclared false (s.handOff o f).arrival).marked past) := by
  have sched := s.arrived_sched o f
  rw [State.current, State.arrive_schedule, beq_iff_eq.mpr state]
  have still : (s.arrived o f).dueAt o (s.handOff o f).arrival.stamp = none := by
    rw [State.dueAt, sched]
    exact due
  have profiles := (Spreads.arrived s o f).profiles
  rw [State.schedule_of_undeclared still]
  generalize s.arrived o f = v at profiles
  obtain ⟨b, begun, -⟩ := v.begin_sched o v.undeclared false (s.handOff o f).arrival
  have same : v.begun v.undeclared false (s.handOff o f).arrival = s.begun s.undeclared false (s.handOff o f).arrival := by
    unfold State.begun State.newCurrent State.undeclared State.latestVersion State.latestProfile
    rw [profiles]
  have now : ((v.begin o v.undeclared false (s.handOff o f).arrival).testFollow o).current o =
      some (s.begun s.undeclared false (s.handOff o f).arrival) := by
    rw [State.current, (State.testFollow_arms _ o).frame.1, begun, same]
  rw [State.testOverrun_sched now]
  exact ⟨_, rfl⟩

end

/-- Settles O14: what is read off the segment made current, the slots and the flags after the frame. -/
theorem boundaryAndFirstFrame : Obligations.BoundaryAndFirstFrame := by
  intro s o bytes powered
  refine ⟨fun c m on current armed met => ?_, fun m waiting armed met => ?_, fun waiting undue => ?_⟩
  · have state : (s.outlet o).intake.state ≠ .off ∧ (s.outlet o).intake.state ≠ .waiting := by
      rcases on with h | h <;> simp [h]
    have due : (s.useFree 1).dueAt o s.time.air = some m := State.dueAt_eq_some.mpr ⟨armed, met⟩
    obtain ⟨entered, delivered⟩ := State.arrive_of_boundary (s := s.useFree 1) current state.2 due (treat o bytes) s.free
    have done := exec_arrival_of_on powered state.1 bytes
    replace entered := entered.refresh
    replace delivered := delivered.refresh
    generalize ((s.useFree 1).arrive o (treat o bytes) (consumerOrder s.free)).refresh = t at done entered delivered
    obtain ⟨past, now⟩ := entered.current
    exact ⟨t, _, done, now, rfl, rfl, rfl, rfl, rfl, rfl, rfl, rfl, delivered.segment, delivered.raised, entered.empty⟩
  · have due : (s.useFree 1).dueAt o s.time.air = some m := State.dueAt_eq_some.mpr ⟨armed, met⟩
    obtain ⟨entered, slot⟩ := State.arrive_of_armed (s := s.useFree 1) waiting due (treat o bytes) (consumerOrder s.free)
    have done := exec_arrival_of_on (o := o) powered (by simp [waiting]) bytes
    replace entered := entered.refresh
    replace slot : (s.outlet o).verdict.segSlot = none →
        (((s.useFree 1).arrive o (treat o bytes) (consumerOrder s.free)).refresh.outlet o).verdict.segSlot = none := slot
    generalize ((s.useFree 1).arrive o (treat o bytes) (consumerOrder s.free)).refresh = t at done entered slot
    obtain ⟨past, now⟩ := entered.current
    exact ⟨t, _, done, now, rfl, rfl, rfl, rfl, rfl, rfl, rfl, rfl, slot, entered.empty⟩
  · have due : (s.useFree 1).dueAt o s.time.air = none := State.dueAt_eq_none.mpr undue
    obtain ⟨past, now⟩ := State.arrive_of_undeclared (s := s.useFree 1) waiting due (treat o bytes) (consumerOrder s.free)
    exact ⟨_, _, exec_arrival_of_on (o := o) powered (by simp [waiting]) bytes, now, rfl, rfl, rfl, rfl, rfl⟩

/-- A segment that becomes current has the kind of its declaration (R44, R48). -/
theorem State.newCurrent_kind (s : State) (d : Declaration) (late : Bool) (stamp : AirTime) (rfn : Rfn) :
    (s.newCurrent d late stamp rfn).decl.kind = d.kind ∧
      (d.kind ≠ .undeclared → (s.newCurrent d late stamp rfn).decl = d) := by
  unfold State.newCurrent
  dsimp only
  split
  · rename_i undeclared
    exact ⟨undeclared.symm, fun other => absurd undeclared other⟩
  · exact ⟨rfl, fun _ => rfl⟩

theorem SegKind.inBreak_iff_opens (k : SegKind) : k.inBreak ↔ (k = .commercial ∨ k = .promo) ∨ k = .junction := or_assoc.symm

/-- Settles O29: the break that the segment's kind requires, and the verdict of a break that closes at a boundary. -/
theorem breaksStepped : Obligations.BreaksStepped := by
  constructor
  · intro s o stamp c current opens
    refine ⟨fun none opening => ?_, fun none other => ?_, fun b opened => ⟨fun member => ?_, fun other junction r loud => ?_⟩⟩
    · rw [State.stepBreak_of_opening current stamp none ((opensBreak_iff _).mpr opening)]
      exact State.modOutlet_modOutlet s o _ _
    · exact State.stepBreak_of_none current stamp none fun opening => other ((opensBreak_iff _).mp opening)
    · exact State.stepBreak_of_member current stamp opened ((SegKind.inBreak_iff_opens _).mpr member)
    · have outside : ¬c.decl.kind.inBreak := fun inside =>
        ((SegKind.inBreak_iff_opens _).mp inside).elim other junction
      rw [State.stepBreak_of_closing current stamp opened outside, State.closeBreak_of_open opened, loud]
      rfl
  · intro s o bytes c m powered on current armed met opens
    have state : (s.outlet o).intake.state ≠ .off ∧ (s.outlet o).intake.state ≠ .waiting := by
      rcases on with h | h <;> simp [h]
    have due : (s.useFree 1).dueAt o s.time.air = some m := State.dueAt_eq_some.mpr ⟨armed, met⟩
    obtain ⟨entered, delivered⟩ := State.arrive_of_boundary (s := s.useFree 1) current state.2 due (treat o bytes) s.free
    have done := exec_arrival_of_on powered state.1 bytes
    replace entered := entered.refresh
    replace delivered := delivered.refresh
    generalize ((s.useFree 1).arrive o (treat o bytes) (consumerOrder s.free)).refresh = t at done entered delivered
    have brk := entered.brk
    obtain ⟨kind, named⟩ := (s.useFree 1).newCurrent_kind m.decl m.lateStart s.time.air (s.outlet o).intake.rfn
    have starts : ((s.useFree 1).newCurrent m.decl m.lateStart s.time.air (s.outlet o).intake.rfn).startStamp = s.time.air ∧
      ((s.useFree 1).newCurrent m.decl m.lateStart s.time.air (s.outlet o).intake.rfn).startRfn = (s.outlet o).intake.rfn := ⟨rfl, rfl⟩
    change BreakAfter _ ((s.useFree 1).newCurrent m.decl m.lateStart s.time.air (s.outlet o).intake.rfn) _ _ _ at brk
    generalize (s.useFree 1).newCurrent m.decl m.lateStart s.time.air (s.outlet o).intake.rfn = n at brk kind named starts
    obtain ⟨stamp, rfn⟩ := starts
    have opensNow : opensBreak n.decl.kind = true ↔ opens := by rw [opensBreak_iff, kind]
    have insideNow : n.decl.kind.inBreak ↔ opens ∨ m.decl.kind = .junction := by rw [SegKind.inBreak_iff_opens, kind]
    refine ⟨t, done, fun opening none => ?_, fun b member opened => ?_, fun other outside => ⟨?_, fun opened => ?_⟩⟩
    · have declared := named (by rcases opening with h | h <;> simp [h])
      refine (brk.opening none ((opensBreak_iff _).mpr (kind.symm ▸ opening))).trans ?_
      rw [State.openBreak, declared, stamp, rfn]
      rfl
    · have declared := named (by rcases member with (h | h) | h <;> simp [h])
      refine (brk.member b opened (insideNow.mpr member)).trans ?_
      rw [declared]
      rfl
    · cases before : (s.outlet o).sched.brk with
      | none => exact brk.none before fun opening => other (opensNow.mp opening)
      | some b =>
        refine brk.closing (by simp [State.useFree_outlet, before]) fun inside => ?_
        rcases insideNow.mp inside with opening | junction
        · exact other opening
        · exact outside.elim (fun h => h junction) fun none => by simp [before] at none
    · exact delivered.brk opened

end Sys2Proof.Machine
end

section
/-! A frame tick outlet by outlet and link by link (R12, R13, R16, R39, R40, R84 to R86, R166, R167). -/

namespace Sys2Proof.Machine

/-! ### One outlet changed, and all of them in turn -/

/-- A state in which one outlet has become another, with BREACH raised on both links where a breach line rose. -/
structure Turned (s : State) (o : OutletId) (t : Outlet) (rose : Prop) (u : State) : Prop where
  outlet : u.outlet o = t
  others : ∀ p : OutletId, p ≠ o → u.outlet p = s.outlet p
  links : ∀ l : Link, { u.link l with flags := (s.link l).flags } = s.link l
  flags : ∀ (l : Link) (x : Flag), (u.link l).flags.has x = true ↔ (s.link l).flags.has x = true ∨ x = .breach ∧ rose
  frame : { u with outlets := s.outlets, links := s.links } = s

/-- The same with every outlet. -/
structure Turns (s : State) (g : OutletId → Outlet) (rose : Prop) (u : State) : Prop where
  outlet : ∀ o : OutletId, u.outlet o = g o
  links : ∀ l : Link, { u.link l with flags := (s.link l).flags } = s.link l
  flags : ∀ (l : Link) (x : Flag), (u.link l).flags.has x = true ↔ (s.link l).flags.has x = true ∨ x = .breach ∧ rose
  frame : { u with outlets := s.outlets, links := s.links } = s

theorem Turned.refl (s : State) (o : OutletId) : Turned s o (s.outlet o) False s :=
  ⟨rfl, fun _ _ => rfl, fun _ => rfl, by simp, rfl⟩

theorem Turned.modOutlet (s : State) (o : OutletId) (f : Outlet → Outlet) : Turned s o (f (s.outlet o)) False (s.modOutlet o f) :=
  ⟨State.outlet_modOutlet_same s o f, fun _ h => State.outlet_modOutlet_of_ne s h f, fun _ => rfl,
    fun _ _ => ⟨.inl, fun h => h.elim id fun k => k.2.elim⟩, rfl⟩

theorem Turned.of_modOutlet {s : State} {o : OutletId} {f : Outlet → Outlet} {t : Outlet} (h : f (s.outlet o) = t) :
    Turned s o t False (s.modOutlet o f) :=
  h ▸ .modOutlet s o f

/-- A change of the outlet before the turn is part of it. -/
theorem Turned.after_modOutlet {s u : State} {o : OutletId} {f : Outlet → Outlet} {t : Outlet} {rose : Prop}
    (h : Turned (s.modOutlet o f) o t rose u) : Turned s o t rose u :=
  ⟨h.outlet, fun p other => (h.others p other).trans (State.outlet_modOutlet_of_ne s other f), h.links, h.flags,
    (congrArg (fun v : State => { v with outlets := s.outlets }) h.frame :)⟩

theorem Turned.raiseBreach {s u : State} {o : OutletId} {t : Outlet} (h : Turned s o t False u) :
    Turned s o t True (u.raiseBoth .breach) := by
  refine ⟨h.outlet, h.others, fun l => ?_, fun l x => ?_, h.frame⟩
  · rw [← h.links l]
    cases l <;> rfl
  · have raised : ((u.raiseBoth .breach).link l).flags = (u.link l).flags.add .breach := by cases l <;> rfl
    rw [raised, FlagSet.has_add, Bool.or_eq_true, h.flags l x, beq_iff_eq]
    simp only [and_false, or_false, and_true, @eq_comm _ x]

theorem Turned.congr {s u : State} {o : OutletId} {t t' : Outlet} {rose rose' : Prop} (h : Turned s o t rose u) (same : t = t')
    (iff : rose ↔ rose') : Turned s o t' rose' u := by
  rw [← same, ← propext iff]
  exact h

section
variable {s : State} {f : State → OutletId → State × List Draft} {g : OutletId → Outlet → Outlet} {rose : Outlet → Prop}
  {drafts : OutletId → Outlet → List Draft}

/-- An effect on some outlets in turn, each reading no other outlet. -/
theorem State.foldDraft_turns
    (step : ∀ (u : State) (o : OutletId), { u with outlets := s.outlets, links := s.links } = s →
      Turned u o (g o (u.outlet o)) (rose (u.outlet o)) (f u o).1 ∧ (f u o).2 = drafts o (u.outlet o))
    (os : List OutletId) (once : os.Nodup) (p : State × List Draft) (frame : { p.1 with outlets := s.outlets, links := s.links } = s)
    (fresh : ∀ o ∈ os, p.1.outlet o = s.outlet o) :
    let r := os.foldl (fun p o => ((f p.1 o).1, p.2 ++ (f p.1 o).2)) p
    Turns p.1 (fun o => if o ∈ os then g o (s.outlet o) else p.1.outlet o) (∃ o ∈ os, rose (s.outlet o)) r.1 ∧
      r.2 = p.2 ++ os.flatMap fun o => drafts o (s.outlet o) := by
  intro r
  induction os generalizing p with
  | nil => exact ⟨⟨fun o => (if_neg (by simp)).symm, fun _ => rfl, fun l x => ⟨.inl, by simp [r]⟩, rfl⟩, (List.append_nil _).symm⟩
  | cons o os ih =>
    obtain ⟨first, once⟩ := List.nodup_cons.mp once
    obtain ⟨turned, made⟩ := step p.1 o frame
    rw [fresh o (by simp)] at turned made
    have frame' : { (f p.1 o).1 with outlets := s.outlets, links := s.links } = s :=
      (congrArg (fun v : State => { v with outlets := s.outlets, links := s.links }) turned.frame :).trans frame
    obtain ⟨rest, records⟩ := ih once ((f p.1 o).1, p.2 ++ (f p.1 o).2) frame' fun q hq =>
      (turned.others q fun h => first (h ▸ hq)).trans (fresh q (by simp [hq]))
    refine ⟨⟨fun q => ?_, fun l => ?_, fun l x => ?_, ?_⟩, ?_⟩
    · refine (rest.outlet q).trans ?_
      by_cases here : q = o
      · subst here
        rw [if_neg first, if_pos (by simp)]
        exact turned.outlet
      · simp [here, turned.others q here]
    · exact (congrArg (fun p' : LinkPort => { p' with flags := (p.1.link l).flags }) (rest.links l) :).trans (turned.links l)
    · refine (rest.flags l x).trans ?_
      rw [turned.flags l x]
      simp only [List.mem_cons, exists_eq_or_imp]
      tauto
    · exact (congrArg (fun v : State => { v with outlets := p.1.outlets, links := p.1.links }) rest.frame :).trans turned.frame
    · refine records.trans ?_
      rw [made, List.flatMap_cons, List.append_assoc]

/-- An effect on every outlet in turn, each reading no other outlet. -/
theorem State.eachDraft_turns
    (step : ∀ (u : State) (o : OutletId), { u with outlets := s.outlets, links := s.links } = s →
      Turned u o (g o (u.outlet o)) (rose (u.outlet o)) (f u o).1 ∧ (f u o).2 = drafts o (u.outlet o)) :
    Turns s (fun o => g o (s.outlet o)) (∃ o : OutletId, rose (s.outlet o)) (s.eachDraft f).1 ∧
      (s.eachDraft f).2 = allOutlets.flatMap fun o => drafts o (s.outlet o) := by
  obtain ⟨⟨outlet, links, flags, frame⟩, made⟩ :=
    State.foldDraft_turns step allOutlets allOutlets_once (s, []) rfl fun _ _ => rfl
  refine ⟨⟨fun o => (outlet o).trans (if_pos (mem_allOutlets o)), links, fun l x => (flags l x).trans ?_, frame⟩, made⟩
  simp [mem_allOutlets]

end

/-! ### The gap timer at one outlet (R84, R85, R109) -/

/-- Does a LOST tick open a gap on an outlet? -/
def Outlet.gapOpens (t : Outlet) : Bool :=
  t.subs.gap.isNone && (match t.subs.timer with | .running n => decide (n ≤ 1) | .stopped => false | .expired => false)

/-- An outlet after a frame or LOST tick at its gap timer. -/
def Outlet.passed (t : Outlet) (start : AirTime) (rfn : Option Rfn) : Outlet :=
  { t with
    subs := t.subs.passed start rfn
    verdict := if t.gapOpens then { t.verdict with gapOpen := true, line := true } else t.verdict }

theorem Outlet.gapOpens_iff (t : Outlet) :
    t.gapOpens = true ↔ t.subs.gap = none ∧ ∃ n : Nat, t.subs.timer = .running n ∧ n ≤ 1 := by
  unfold Outlet.gapOpens
  rw [Bool.and_eq_true, Option.isNone_iff_eq_none]
  refine and_congr_right fun _ => ?_
  cases t.subs.timer <;> simp

theorem State.passGap_turned (s : State) (o : OutletId) (start : AirTime) (rfn : Option Rfn) :
    Turned s o ((s.outlet o).passed start rfn) ((s.outlet o).gapOpens = true ∧ (s.outlet o).verdict.line = false)
      (s.passGap o start rfn) := by
  have still : ∀ u : State, (s.outlet o).gapOpens = false → Turned s o { s.outlet o with subs := (s.outlet o).subs.passed start rfn } False u →
      Turned s o ((s.outlet o).passed start rfn) ((s.outlet o).gapOpens = true ∧ (s.outlet o).verdict.line = false) u := by
    intro u shut turned
    exact turned.congr (by simp [Outlet.passed, shut]) (by simp [shut])
  cases gap : (s.outlet o).subs.gap with
  | some g =>
    refine still _ (by simp [Outlet.gapOpens, gap]) ?_
    rw [State.passGap_of_open gap]
    exact (Turned.modOutlet s o _).congr (by simp [Subs.passed, gap]) Iff.rfl
  | none =>
    cases timer : (s.outlet o).subs.timer with
    | running n =>
      rw [State.passGap_of_running gap timer]
      by_cases fires : n ≤ 1
      · have opens : (s.outlet o).gapOpens = true := (s.outlet o).gapOpens_iff.mpr ⟨gap, n, timer, fires⟩
        have after : { s.outlet o with
            subs := { (s.outlet o).subs with
                      timer := .expired, gap := some { start := start, rfn := rfn, length := 1 }
                      record := (s.outlet o).subs.record.map fun k => { k with gapCount := min 4294967295 (k.gapCount + 1) } }
            verdict := { (s.outlet o).verdict with gapOpen := true, line := true } } = (s.outlet o).passed start rfn := by
          simp [Outlet.passed, opens, Subs.passed, gap, timer, fires, Subs.modRecord, satAdd, max32]
        rw [if_pos fires, State.openGap_eq]
        cases line : (s.outlet o).verdict.line with
        | true =>
          dsimp only
          rw [if_pos rfl]
          exact (Turned.modOutlet s o _).congr after (by simp)
        | false =>
          dsimp only
          rw [if_neg (by simp)]
          exact (Turned.modOutlet s o _).raiseBreach.congr after (by simp [opens])
      · rw [if_neg fires]
        exact still _ (by simp [Outlet.gapOpens, timer, fires])
          ((Turned.modOutlet s o _).congr (by simp [Subs.passed, gap, timer, fires]) Iff.rfl)
    | stopped =>
      rw [State.passGap_of_still gap (.inl timer)]
      exact still _ (by simp [Outlet.gapOpens, timer]) ((Turned.refl s o).congr (by simp [Subs.passed, gap, timer]) Iff.rfl)
    | expired =>
      rw [State.passGap_of_still gap (.inr timer)]
      exact still _ (by simp [Outlet.gapOpens, timer]) ((Turned.refl s o).congr (by simp [Subs.passed, gap, timer]) Iff.rfl)

/-! ### A tick at Return Intake (R12, R13) -/

/-- A schedule whose current segment has counted a LOST tick. -/
def Sched.lostTick (q : Sched) : Sched :=
  { q with current := q.current.map fun c => { c with lostTicks := min 4294967295 (c.lostTicks + 1) } }

/-- An outlet after a frame tick at Return Intake, the Subtitle Checker and the segment's count (R12, R13). -/
def Outlet.ticked (t : Outlet) (air : AirTime) : Outlet :=
  match t.intake.state with
  | .off => t
  | .waiting => t
  | .active =>
    { t with intake :=
        if 2 ≤ t.intake.lossTimer then
          { t.intake with state := .lost, expected := none, lossTimer := t.intake.lossTimer + 1, lostTicks := 0 }
        else { t.intake with lossTimer := t.intake.lossTimer + 1 } }
  | .lost =>
    { (t.passed air none) with
      intake := { t.intake with lostTicks := min 4294967295 (t.intake.lostTicks + 1) }, sched := t.sched.lostTick }

/-- The RETURN_LOST record that a tick brings on an outlet (R12). -/
def Outlet.lostDrafts (t : Outlet) (o : OutletId) (air : AirTime) : List Draft :=
  if t.intake.state = .active ∧ 2 ≤ t.intake.lossTimer then
    [{ outlet := some o, stamp := air,
       body := .returnLost (t.intake.lastArrival.map Prod.fst) (t.intake.lastArrival.map Prod.snd)
        ((t.sched.current.map fun c => c.decl.id).getD 0) }]
  else []

/-- Does a tick make the breach line of an outlet rise? -/
def Outlet.rises (t : Outlet) : Prop := t.intake.state = .lost ∧ t.gapOpens = true ∧ t.verdict.line = false

theorem State.tickIntake_turned (s : State) (o : OutletId) :
    Turned s o ((s.outlet o).ticked s.time.air) (s.outlet o).rises (s.tickIntake o).1 ∧
      (s.tickIntake o).2 = (s.outlet o).lostDrafts o s.time.air := by
  unfold State.tickIntake Outlet.ticked Outlet.rises Outlet.lostDrafts
  cases state : (s.outlet o).intake.state with
  | off => exact ⟨(Turned.refl s o).congr rfl (by simp), by simp⟩
  | waiting => exact ⟨(Turned.refl s o).congr rfl (by simp), by simp⟩
  | lost =>
    refine ⟨?_, by simp⟩
    dsimp only
    unfold State.lostTick
    refine Turned.after_modOutlet (f := fun t => { t with intake := { t.intake with lostTicks := satAdd max32 t.intake.lostTicks 1 } })
      (Turned.after_modOutlet (f := fun t => { t with sched := t.sched.lostTick }) ?_)
    refine (State.passGap_turned _ o s.time.air none).congr ?_ ?_
    · rw [State.outlet_modOutlet_same, State.outlet_modOutlet_same]
      rfl
    · rw [State.outlet_modOutlet_same, State.outlet_modOutlet_same]
      exact (and_iff_right rfl).symm
  | active =>
    dsimp only
    by_cases late : 2 ≤ (s.outlet o).intake.lossTimer
    · simp only [late, if_true]
      refine ⟨?_, ?_⟩
      · refine Turned.after_modOutlet (f := fun t => { t with intake := { t.intake with lossTimer := t.intake.lossTimer + 1 } })
          ((Turned.modOutlet _ o fun t =>
            { t with intake := { t.intake with state := .lost, expected := none, lostTicks := 0 } }).congr ?_ ?_)
        · rw [State.outlet_modOutlet_same]
        · simp
      · unfold State.lostDraft State.current
        rw [State.modIntake, State.outlet_modOutlet_same]
        rfl
    · simp only [late, if_false]
      exact ⟨(Turned.modOutlet s o _).congr rfl (by simp), rfl⟩

end Sys2Proof.Machine
end

section
/-! A TIMED head at a tick or a step, and the whole of a frame tick (R13, R16, R39, R40, R149, R166, R167). -/

namespace Sys2Proof.Machine

/-! ### TIMED heads (R39, R40) -/

/-- The TIMED head of an outlet that is due at an air time, with its start time. -/
def Outlet.dueTimed (t : Outlet) (air : AirTime) : Option (Declaration × AirTime) :=
  t.sched.queue.head?.bind fun d =>
    match d.start with
    | some (.timed a) => if a.frames ≤ air.frames then some (d, a) else none
    | _ => none

theorem Outlet.dueTimed_eq_some {t : Outlet} {air a : AirTime} {d : Declaration} :
    t.dueTimed air = some (d, a) ↔ t.sched.queue.head? = some d ∧ d.start = some (.timed a) ∧ a.frames ≤ air.frames := by
  unfold Outlet.dueTimed
  rw [Option.bind_eq_some_iff]
  refine ⟨fun ⟨e, head, due⟩ => ?_, fun ⟨head, start, due⟩ => ⟨d, head, ?_⟩⟩
  · split at due
    · rename_i b start
      split at due
      · rename_i reached
        cases due
        exact ⟨head, start, reached⟩
      · cases due
    · cases due
  · rw [start]
    exact if_pos due

theorem Outlet.dueTimed_eq_none {t : Outlet} {air : AirTime} :
    t.dueTimed air = none ↔
      ∀ (d : Declaration) (a : AirTime), t.sched.queue.head? = some d → d.start = some (.timed a) → air.frames < a.frames := by
  rw [Option.eq_none_iff_forall_ne_some]
  refine ⟨fun none d a head start => ?_, fun early x due => ?_⟩
  · refine Nat.lt_of_not_le fun due => none (d, a) (Outlet.dueTimed_eq_some.mpr ⟨head, start, due⟩)
  · obtain ⟨head, start, due⟩ := Outlet.dueTimed_eq_some.mp due
    exact absurd (early x.1 x.2 head start) (Nat.not_lt.mpr due)

/-- An outlet after the test of its TIMED head: armed with the slot empty, and otherwise a waiting trigger. -/
def Outlet.timed (t : Outlet) (air : AirTime) (delay : Nat) : Outlet :=
  match t.dueTimed air with
  | none => t
  | some (d, a) =>
    if t.sched.armed.isSome then { t with sched := { t.sched with waiting := some .timed } }
    else { t with sched := t.sched.arm d (.stamp (a.add delay)) .timed air (decide (a.frames < air.frames)) }

/-- The LATE_START record of a TIMED head that is armed strictly past its start time. -/
def Outlet.lateDrafts (t : Outlet) (o : OutletId) (air : AirTime) (cause : LateCause) : List Draft :=
  match t.dueTimed air with
  | none => []
  | some (d, a) => if t.sched.armed = none ∧ a.frames < air.frames then [lateDraft o d a air cause] else []

theorem State.testTimed_of_undue {s : State} {o : OutletId} (undue : (s.outlet o).dueTimed s.time.air = none) (cause : LateCause) :
    s.testTimed o cause = (s, []) := by
  unfold State.testTimed
  cases head : s.head o with
  | none => rfl
  | some d =>
    dsimp only
    split
    · rename_i a start
      have early := Outlet.dueTimed_eq_none.mp undue d a head start
      exact if_pos (by simpa [AirTime.atOrBefore] using early)
    · rfl

theorem State.testTimed_of_due {s : State} {o : OutletId} {d : Declaration} {a : AirTime}
    (due : (s.outlet o).dueTimed s.time.air = some (d, a)) (cause : LateCause) :
    s.testTimed o cause =
      if (s.outlet o).sched.armed.isSome then (s.setWaiting o .timed, []) else s.armTimed o d a cause := by
  obtain ⟨head, start, reached⟩ := Outlet.dueTimed_eq_some.mp due
  unfold State.testTimed
  rw [show s.head o = some d from head]
  dsimp only
  rw [start]
  exact if_neg (by simpa [AirTime.atOrBefore] using reached)

theorem State.testTimed_turned (s : State) (o : OutletId) (cause : LateCause) :
    Turned s o ((s.outlet o).timed s.time.air (s.outletSettings o).returnDelay) False (s.testTimed o cause).1 ∧
      (s.testTimed o cause).2 = (s.outlet o).lateDrafts o s.time.air cause := by
  unfold Outlet.timed Outlet.lateDrafts
  cases due : (s.outlet o).dueTimed s.time.air with
  | none =>
    rw [State.testTimed_of_undue due]
    exact ⟨.refl s o, rfl⟩
  | some x =>
    obtain ⟨d, a⟩ := x
    rw [State.testTimed_of_due due]
    dsimp only
    by_cases occupied : (s.outlet o).sched.armed.isSome = true
    · simp only [occupied, if_true, State.setWaiting, State.modSched]
      exact ⟨.of_modOutlet rfl, (if_neg fun h => by simp [h.1] at occupied).symm⟩
    · simp only [occupied, if_false, Bool.false_eq_true, State.armTimed, State.armHead, State.modSched, AirTime.before]
      refine ⟨.of_modOutlet rfl, ?_⟩
      have free : (s.outlet o).sched.armed = none := by simpa using occupied
      simp [free]

/-! ### Deferred reads at a tick (R166, R167) -/

/-- A deferred read a tick older. -/
def Deferred.older (d : Deferred) : Deferred := { d with age := d.age + 1 }

/-- What a tick makes of a table of deferred reads: those that stay in it. -/
def waitingReads (ds : List Deferred) : List Deferred := (ds.map Deferred.older).filter fun d => decide (d.age < 50)

/-- The reads that leave a table at a tick. -/
def lateReads (ds : List Deferred) : List Deferred := ds.filter fun d => decide (49 ≤ d.age)

/-- A deferred read a tick younger. -/
def Deferred.younger (d : Deferred) : Deferred := { d with age := d.age - 1 }

theorem Deferred.younger_older (d : Deferred) : d.older.younger = d := rfl

theorem filter_older (ds : List Deferred) :
    (ds.map Deferred.older).filter (fun d => !d.timedOut) = waitingReads ds ∧
      (ds.map Deferred.older).filter Deferred.timedOut = (lateReads ds).map Deferred.older := by
  constructor
  · refine List.filter_congr fun d _ => ?_
    simp [Deferred.timedOut, ← decide_not]
  · rw [List.filter_map, lateReads]
    refine congrArg _ (List.filter_congr fun d _ => ?_)
    simp [Deferred.timedOut, Deferred.older]

/-- A reordering of reads as they age is one of the reads as they were. -/
theorem younger_perm {order ds : List Deferred} (h : order.Perm (ds.map Deferred.older)) : (order.map Deferred.younger).Perm ds := by
  have back : (ds.map Deferred.older).map Deferred.younger = ds := by
    rw [List.map_map, show Deferred.younger ∘ Deferred.older = id from rfl, List.map_id]
  exact back ▸ h.map _

/-- The age of a read is no part of its answer. -/
theorem LinkPort.answeredReads_younger (p : LinkPort) (ds : List Deferred) (status : Status) (body : Deferred → Body)
    (same : ∀ d : Deferred, body d.younger = body d) :
    p.answeredReads (ds.map Deferred.younger) status body = p.answeredReads ds status body := by
  unfold LinkPort.answeredReads
  simp only [List.map_map, Function.comp_def, same]
  rfl

/-- A link's port after a frame tick, with the order in which the reads that ran out were answered. -/
def LinkPort.tickedReads (p : LinkPort) (order : List Deferred) (body : Deferred → Body) : LinkPort :=
  { p with deferred := waitingReads p.deferred }.answeredReads order .notYet body

/-- The frame tick at a link: the reads age, and those whose age reaches 50 are answered in either order. -/
theorem tickDeferred_eq (l : Link) (s : State) :
    ∃ order : List Deferred, order.Perm (lateReads (s.link l).deferred) ∧
      tickDeferred l s = (s.modLink l fun p => p.tickedReads order fun d => s.pageFound d.outlet d.sequence []).useFree 1 := by
  have aged : (ageDeferred l s).link l = { s.link l with deferred := (s.link l).deferred.map Deferred.older } := State.modLink_link ..
  have late : ((ageDeferred l s).link l).deferred.filter Deferred.timedOut = (lateReads (s.link l).deferred).map Deferred.older := by
    rw [aged]
    exact (filter_older _).2
  have perm := (ageDeferred l s).shuffled_perm (((ageDeferred l s).link l).deferred.filter Deferred.timedOut)
  refine ⟨_, younger_perm (perm.trans (.of_eq late)), ?_⟩
  unfold tickDeferred
  rw [timeOutDeferred_eq]
  unfold ageDeferred
  rw [State.modLink_modLink]
  refine congrArg (State.useFree · 1) (State.modLink_congr _ _ ?_)
  rw [LinkPort.tickedReads, LinkPort.answeredReads_younger _ _ _ _ fun d => rfl, ← (filter_older _).1]
  rfl

theorem tickDeferred_frame (l : Link) (s : State) : { tickDeferred l s with links := s.links, free := s.free } = s := by
  obtain ⟨order, -, same⟩ := tickDeferred_eq l s
  rw [same]
  rfl

/-- The frame tick at both links. -/
theorem tickDeferred_both (s : State) :
    (∀ l : Link, ∃ order : List Deferred, order.Perm (lateReads (s.link l).deferred) ∧
      (tickDeferred .compliance (tickDeferred .automation s)).link l =
        (s.link l).tickedReads order fun d => s.pageFound d.outlet d.sequence []) ∧
      { tickDeferred .compliance (tickDeferred .automation s) with links := s.links, free := s.free } = s := by
  obtain ⟨orderA, permA, automation⟩ := tickDeferred_eq .automation s
  obtain ⟨orderC, permC, compliance⟩ := tickDeferred_eq .compliance (tickDeferred .automation s)
  have same : (tickDeferred .automation s).link .compliance = s.link .compliance := by rw [automation]; rfl
  have found : ∀ d : Deferred, (tickDeferred .automation s).pageFound d.outlet d.sequence [] = s.pageFound d.outlet d.sequence [] :=
    fun d => by rw [automation]; rfl
  have frame : { tickDeferred .automation s with links := s.links, free := s.free } = s := by rw [automation]; rfl
  have first : (tickDeferred .automation s).link .automation =
      (s.link .automation).tickedReads orderA fun d => s.pageFound d.outlet d.sequence [] := by rw [automation]; rfl
  simp only [found] at compliance
  rw [same] at permC
  rw [compliance]
  generalize tickDeferred .automation s = u at frame first same
  refine ⟨fun l => ?_, frame⟩
  cases l with
  | automation => exact ⟨orderA, permA, first⟩
  | compliance =>
    refine ⟨orderC, permC, ?_⟩
    rw [← same]
    rfl

/-- Records written in whatever order change the evidence alone (R149). -/
theorem State.createAnyOrder_spec (s : State) (ds : List Draft) :
    { s.createAnyOrder ds with evidence := s.evidence, free := s.free } = s ∧
      ∃ records : List Draft, records.Perm ds ∧ (s.createAnyOrder ds).evidence = records.foldl Evidence.create s.evidence :=
  ⟨(congrArg (fun v : State => { v with free := s.free }) (s.createAll_eq (s.shuffled ds)) :), s.shuffled ds, s.shuffled_perm ds,
    s.createAll_evidence _⟩

/-! ### The whole of a tick (R16) -/

/-- The outlets, the ports and the evidence after a frame tick that brings the air time `air`. -/
structure Ticked (s : State) (air : AirTime) (u : State) : Prop where
  outlet : ∀ o : OutletId, u.outlet o = ((s.outlet o).ticked air).timed air (s.outletSettings o).returnDelay
  flags : ∀ (l : Link) (x : Flag),
    (u.link l).flags.has x = true ↔ (s.link l).flags.has x = true ∨ x = .breach ∧ ∃ o : OutletId, (s.outlet o).rises
  links : ∀ l : Link, ∃ order : List Deferred, order.Perm (lateReads (s.link l).deferred) ∧
    { u.link l with flags := (s.link l).flags } = (s.link l).tickedReads order fun d => s.pageFound d.outlet d.sequence []
  evidence : ∃ records : List Draft,
    records.Perm ((allOutlets.flatMap fun o => (s.outlet o).lostDrafts o air) ++
      allOutlets.flatMap fun o => (s.outlet o).lateDrafts o air .lateDeclare) ∧
    u.evidence = records.foldl Evidence.create s.evidence

theorem Outlet.ticked_dueTimed (t : Outlet) (air now : AirTime) : (t.ticked air).dueTimed now = t.dueTimed now := by
  unfold Outlet.ticked Outlet.passed Sched.lostTick Outlet.dueTimed
  cases t.intake.state <;> rfl

theorem Outlet.ticked_armed (t : Outlet) (air : AirTime) : (t.ticked air).sched.armed = t.sched.armed := by
  unfold Outlet.ticked Outlet.passed Sched.lostTick
  cases t.intake.state <;> rfl

theorem Outlet.ticked_lateDrafts (t : Outlet) (o : OutletId) (air now : AirTime) (cause : LateCause) :
    (t.ticked air).lateDrafts o now cause = t.lateDrafts o now cause := by
  unfold Outlet.lateDrafts
  rw [Outlet.ticked_dueTimed, Outlet.ticked_armed]

/-- A tick is the work of Intake on every outlet, then that of the Scheduler, then that of the links, and the records of all. -/
theorem State.tick_ticked (s : State) : Ticked s (nextFrame s.time.air) s.tick := by
  have air : (s.modTime TimeBase.tick).time.air = nextFrame s.time.air := AirTime.tick_eq s.time.air
  obtain ⟨first, lost⟩ := State.eachDraft_turns (s := s.modTime TimeBase.tick) (f := State.tickIntake)
    (g := fun _ t => t.ticked (nextFrame s.time.air)) (rose := Outlet.rises)
    (drafts := fun o t => t.lostDrafts o (nextFrame s.time.air)) fun u o frame => by
      have now : u.time.air = nextFrame s.time.air := (congrArg (fun v : State => v.time.air) frame :).trans air
      rw [← now]
      exact u.tickIntake_turned o
  unfold State.tick
  dsimp only
  generalize (s.modTime TimeBase.tick).eachDraft State.tickIntake = p at first lost
  have same : p.1.time.air = nextFrame s.time.air ∧ p.1.settings = s.settings :=
    ⟨(congrArg (fun v : State => v.time.air) first.frame :).trans air, (congrArg State.settings first.frame :)⟩
  obtain ⟨second, late⟩ := State.eachDraft_turns (s := p.1) (f := fun s o => s.testTimed o .lateDeclare)
    (g := fun o t => t.timed (nextFrame s.time.air) (s.outletSettings o).returnDelay) (rose := fun _ => False)
    (drafts := fun o t => t.lateDrafts o (nextFrame s.time.air) .lateDeclare) fun u o frame => by
      have now : u.time.air = nextFrame s.time.air := (congrArg (fun v : State => v.time.air) frame :).trans same.1
      have settings : u.settings = s.settings := (congrArg State.settings frame :).trans same.2
      rw [← now, State.outletSettings, ← settings]
      exact u.testTimed_turned o .lateDeclare
  generalize p.1.eachDraft (fun s o => s.testTimed o .lateDeclare) = q at second late
  have found : ∀ d : Deferred, q.1.pageFound d.outlet d.sequence [] = s.pageFound d.outlet d.sequence [] := fun d =>
    (congrArg (State.pageFound · d.outlet d.sequence []) second.frame :).trans
      (congrArg (State.pageFound · d.outlet d.sequence []) first.frame :)
  have ports : ∀ l : Link, { q.1.link l with flags := (s.link l).flags } = s.link l := fun l =>
    (congrArg (fun p : LinkPort => { p with flags := (s.link l).flags }) (second.links l) :).trans (first.links l)
  have reads : ∀ l : Link, lateReads (q.1.link l).deferred = lateReads (s.link l).deferred := fun l =>
    congrArg lateReads (congrArg LinkPort.deferred (ports l) :)
  obtain ⟨links, frame⟩ := tickDeferred_both q.1
  simp only [found, reads] at links
  generalize tickDeferred .compliance (tickDeferred .automation q.1) = v at links frame
  have outlets : ∀ o : OutletId, v.outlet o = ((s.outlet o).ticked (nextFrame s.time.air)).timed (nextFrame s.time.air)
      (s.outletSettings o).returnDelay := fun o => by
    rw [show v.outlet o = q.1.outlet o from (congrArg (State.outlet · o) frame :), second.outlet, first.outlet]
    rfl
  obtain ⟨written, records, perm, evidence⟩ := v.createAnyOrder_spec (p.2 ++ q.2)
  generalize v.createAnyOrder (p.2 ++ q.2) = w at written evidence
  have link : ∀ l : Link, w.link l = v.link l := fun l => (congrArg (State.link · l) written :)
  refine ⟨fun o => ?_, fun l x => ?_, fun l => ?_, records, ?_, ?_⟩
  · exact (congrArg (State.outlet · o) written :).trans (outlets o)
  · obtain ⟨order, -, port⟩ := links l
    rw [link, show (v.link l).flags = (q.1.link l).flags from (congrArg LinkPort.flags port :), second.flags l x, first.flags l x]
    simp only [exists_const, and_false, or_false]
    exact Iff.rfl
  · obtain ⟨order, perm, port⟩ := links l
    refine ⟨order, perm, ?_⟩
    rw [link, port, ← ports l]
    rfl
  · refine perm.trans (.of_eq ?_)
    rw [lost, late]
    simp only [first.outlet, Outlet.ticked_lateDrafts]
    rfl
  · rw [evidence, show v.evidence = q.1.evidence from (congrArg State.evidence frame :),
      show q.1.evidence = p.1.evidence from (congrArg State.evidence second.frame :),
      show p.1.evidence = s.evidence from (congrArg State.evidence first.frame :)]

end Sys2Proof.Machine
end

section
/-! What a frame tick is to Intake, the Scheduler and the Link Ports, and the records and flags it brings (R12, R13, R16, R40, R166). -/

namespace Sys2Proof.Machine

/-- The test of a TIMED head changes the schedule alone. -/
theorem Outlet.timed_but_sched (t : Outlet) (air : AirTime) (delay : Nat) : { t.timed air delay with sched := t.sched } = t := by
  unfold Outlet.timed
  split
  · rfl
  · split <;> rfl

theorem State.passGap_outlet (s : State) (o : OutletId) (start : AirTime) (rfn : Option Rfn) :
    (s.passGap o start rfn).outlet o = (s.outlet o).passed start rfn := (s.passGap_turned o start rfn).outlet

section
variable {s b u : State}

/-- A tick reported, whatever went before it that left the outlets, the air time and the deferred reads. -/
theorem Ticked.reported (h : Ticked b (nextFrame s.time.air) u) (outlets : ∀ o : OutletId, b.outlet o = s.outlet o)
    (deferred : ∀ l : Link, (b.link l).deferred = (s.link l).deferred) : TickReported s u := by
  constructor
  · intro o i gap
    have after : { u.outlet o with sched := ((s.outlet o).ticked (nextFrame s.time.air)).sched } =
        (s.outlet o).ticked (nextFrame s.time.air) := by
      rw [h.outlet o, outlets]
      exact Outlet.timed_but_sched _ _ _
    have passed : gap.outlet o = (s.outlet o).passed (nextFrame s.time.air) none := s.passGap_outlet o _ _
    rw [passed]
    have intake : (u.outlet o).intake = ((s.outlet o).ticked (nextFrame s.time.air)).intake := (congrArg Outlet.intake after :)
    have subs : (u.outlet o).subs = ((s.outlet o).ticked (nextFrame s.time.air)).subs := (congrArg Outlet.subs after :)
    have verdict : (u.outlet o).verdict = ((s.outlet o).ticked (nextFrame s.time.air)).verdict := (congrArg Outlet.verdict after :)
    have loud : (u.outlet o).loud = ((s.outlet o).ticked (nextFrame s.time.air)).loud := (congrArg Outlet.loud after :)
    have writer : (u.outlet o).writer = ((s.outlet o).ticked (nextFrame s.time.air)).writer := (congrArg Outlet.writer after :)
    rw [intake, subs, verdict, loud, writer]
    unfold Outlet.ticked
    simp only [i]
    cases (s.outlet o).intake.state <;> exact ⟨rfl, rfl, rfl, rfl, rfl⟩
  · intro l
    obtain ⟨order, -, port⟩ := h.links l
    rw [show (u.link l).deferred = waitingReads (b.link l).deferred from (congrArg LinkPort.deferred port :), deferred]
    rfl

/-- A schedule after a tick's count (R13). -/
theorem Outlet.ticked_sched (t : Outlet) (air : AirTime) :
    (t.ticked air).sched = if t.intake.state = .lost then t.sched.lostTick else t.sched := by
  unfold Outlet.ticked
  cases t.intake.state <;> rfl

/-- A tick at the Scheduler, whatever went before it that left the outlets, the air time and the settings. -/
theorem Ticked.scheduled (h : Ticked b (nextFrame s.time.air) u) (outlets : ∀ o : OutletId, b.outlet o = s.outlet o)
    (settings : b.settings = s.settings) : TickScheduled s u := by
  intro o air q counted
  have sched : ((s.outlet o).ticked air).sched = counted := (s.outlet o).ticked_sched air
  have after := h.outlet o
  rw [outlets, State.outletSettings, settings] at after
  have due := (s.outlet o).ticked_dueTimed air air
  have armed := (s.outlet o).ticked_armed air
  refine ⟨fun d rest a queue start reached => ?_, fun early => ?_⟩
  · have here : (s.outlet o).dueTimed air = some (d, a) :=
      Outlet.dueTimed_eq_some.mpr ⟨by rw [show (s.outlet o).sched.queue = d :: rest from queue, List.head?_cons], start, reached⟩
    rw [here] at due
    have left : counted.queue = q.queue ∧ counted.armed = q.armed := by
      simp only [counted]
      split <;> exact ⟨rfl, rfl⟩
    rw [after, Outlet.timed, due]
    dsimp only
    rw [armed, sched]
    refine ⟨fun free => ?_, fun occupied => ?_⟩
    · rw [if_neg (by simpa using free), Sched.arm, left.1, queue]
      rfl
    · rw [if_pos occupied, left.2]
  · have undue : (s.outlet o).dueTimed air = none := Outlet.dueTimed_eq_none.mpr early
    rw [undue] at due
    rw [after, Outlet.timed, due]
    exact sched

end

/-! ### The records and the breach -/

theorem tickDrafts_eq (s : State) :
    ((allOutlets.flatMap fun o => (s.outlet o).lostDrafts o (nextFrame s.time.air)) ++
      allOutlets.flatMap fun o => (s.outlet o).lateDrafts o (nextFrame s.time.air) .lateDeclare) = tickDrafts s := by
  refine congrArg₂ (fun xs ys : List Draft => xs ++ ys) ?_ ?_
  · rw [List.filterMap_eq_flatMap_toList]
    refine congrArg (fun f : OutletId → List Draft => allOutlets.flatMap f) (funext fun o => ?_)
    unfold Outlet.lostDrafts
    dsimp only
    split <;> rfl
  · rw [List.filterMap_eq_flatMap_toList]
    refine congrArg (fun f : OutletId → List Draft => allOutlets.flatMap f) (funext fun o => ?_)
    unfold Outlet.lateDrafts
    cases due : (s.outlet o).dueTimed (nextFrame s.time.air) with
    | some x =>
      obtain ⟨d, a⟩ := x
      obtain ⟨head, start, reached⟩ := Outlet.dueTimed_eq_some.mp due
      rw [head]
      cases armed : (s.outlet o).sched.armed with
      | some m => simp
      | none =>
        dsimp only
        rw [start]
        by_cases late : a.frames < (nextFrame s.time.air).frames
        · simp only [late, and_self, if_true]
          rfl
        · simp only [late, and_false, if_false]
          rfl
    | none =>
      have early := Outlet.dueTimed_eq_none.mp due
      cases head : (s.outlet o).sched.queue.head? with
      | none => rfl
      | some d =>
        cases armed : (s.outlet o).sched.armed with
        | some m => rfl
        | none =>
          dsimp only
          split
          · rename_i a start
            rw [if_neg (Nat.not_lt.mpr (early d a head start).le)]
            rfl
          · rfl

theorem tickBreach_iff (s : State) : TickBreach s ↔ ∃ o : OutletId, (s.outlet o).rises := by
  unfold TickBreach Outlet.rises
  refine exists_congr fun o => ?_
  rw [Outlet.gapOpens_iff]
  constructor
  · rintro ⟨n, lost, gap, timer, fires, line⟩
    exact ⟨lost, ⟨gap, n, timer, fires⟩, line⟩
  · rintro ⟨lost, ⟨gap, n, timer, fires⟩, line⟩
    exact ⟨n, lost, gap, timer, fires, line⟩

end Sys2Proof.Machine
end

section
/-! Steps of air time, a pending set applied, and a lock (R21, R22, R24). -/

namespace Sys2Proof.Machine

/-! ### What a step leaves of the outlets and the ports -/

/-- The outlets are as they were but for their schedules, and so are the deferred reads. -/
structure Reschedules (s t : State) : Prop where
  outlets : ∀ o : OutletId, { t.outlet o with sched := (s.outlet o).sched } = s.outlet o
  deferred : ∀ l : Link, (t.link l).deferred = (s.link l).deferred

theorem Reschedules.of_same {s t : State} (outlets : t.outlets = s.outlets) (deferred : ∀ l : Link, (t.link l).deferred = (s.link l).deferred) :
    Reschedules s t :=
  ⟨fun o => by rw [show t.outlet o = s.outlet o from congrArg (fun v : Vector Outlet 8 => v[o]) outlets], deferred⟩

theorem Reschedules.trans {s t u : State} (h : Reschedules s t) (k : Reschedules t u) : Reschedules s u :=
  ⟨fun o => (congrArg (fun v : Outlet => { v with sched := (s.outlet o).sched }) (k.outlets o) :).trans (h.outlets o), fun l =>
    (k.deferred l).trans (h.deferred l)⟩

theorem Reschedules.refresh (s : State) : Reschedules s s.refresh := .of_same rfl fun l => by rw [State.refresh_link]

theorem Reschedules.modTime (s : State) (f : TimeBase → TimeBase) : Reschedules s (s.modTime f) := .of_same rfl fun _ => rfl

theorem Reschedules.create (s : State) (d : Draft) : Reschedules s (s.create d) := .of_same rfl fun _ => rfl

theorem Reschedules.raiseBoth (s : State) (x : Flag) : Reschedules s (s.raiseBoth x) := .of_same rfl fun l => by cases l <;> rfl

theorem Reschedules.respond (s : State) (l : Link) (tag : Tag) (code : Byte) (status : Status) (body : Body) :
    Reschedules s (s.respond l tag code status body) :=
  .of_same rfl fun m => by cases l <;> cases m <;> rfl

/-- A tick reported stays reported where the schedules alone change after it. -/
theorem TickReported.kept {s t u : State} (h : TickReported s t) (k : Reschedules t u) : TickReported s u := by
  refine ⟨fun o => ?_, fun l => (k.deferred l).trans (h.2 l)⟩
  have same := k.outlets o
  have before := h.1 o
  rw [← same] at before
  exact before

theorem TickScheduled.kept {s t u : State} (h : TickScheduled s t) (same : u.outlets = t.outlets) : TickScheduled s u := by
  intro o
  have outlet : u.outlet o = t.outlet o := congrArg (fun v : Vector Outlet 8 => v[o]) same
  rw [outlet]
  exact h o

theorem TickScheduled.modTime {s t : State} (h : TickScheduled s t) (f : TimeBase → TimeBase) : TickScheduled s (t.modTime f) :=
  h.kept rfl

theorem TickScheduled.refresh {s t : State} (h : TickScheduled s t) : TickScheduled s t.refresh := h.kept rfl

/-! ### A step at the Scheduler (R22, R50) -/

/-- An outlet whose current segment has seen a step of air time. -/
def Outlet.stepped (t : Outlet) : Outlet :=
  { t with sched := { t.sched with current := t.sched.current.map fun c => { c with timeStepSeen := true } } }

theorem State.stepOutlet_turned (s : State) (o : OutletId) :
    Turned s o ((s.outlet o).stepped.timed s.time.air (s.outletSettings o).returnDelay) False (s.stepOutlet o).1 ∧
      (s.stepOutlet o).2 = (s.outlet o).stepped.lateDrafts o s.time.air .step := by
  obtain ⟨turned, drafts⟩ := (s.modOutlet o Outlet.stepped).testTimed_turned o .step
  rw [State.outlet_modOutlet_same] at turned drafts
  exact ⟨turned.after_modOutlet, drafts⟩

/-- A step at the Scheduler, outlet by outlet. -/
theorem State.stepScheduler_turns (s : State) :
    (∀ o : OutletId, s.stepScheduler.outlet o = (s.outlet o).stepped.timed s.time.air (s.outletSettings o).returnDelay) ∧
      ∀ l : Link, (s.stepScheduler.link l).deferred = (s.link l).deferred := by
  obtain ⟨turns, -⟩ := State.eachDraft_turns (s := s) (f := State.stepOutlet)
    (g := fun o t => t.stepped.timed s.time.air (s.outletSettings o).returnDelay) (rose := fun _ => False)
    (drafts := fun o t => t.stepped.lateDrafts o s.time.air .step) fun u o frame => by
      have air : u.time.air = s.time.air := (congrArg (fun v : State => v.time.air) frame :)
      have settings : u.settings = s.settings := (congrArg State.settings frame :)
      rw [← air, State.outletSettings, ← settings]
      exact u.stepOutlet_turned o
  unfold State.stepScheduler
  dsimp only
  generalize s.eachDraft State.stepOutlet = p at turns
  have written := (p.1.createAnyOrder_spec p.2).1
  generalize p.1.createAnyOrder p.2 = w at written
  exact ⟨fun o => (congrArg (State.outlet · o) written :).trans (turns.outlet o), fun l =>
    (congrArg (fun v : State => (v.link l).deferred) written :).trans (congrArg LinkPort.deferred (turns.links l) :)⟩

theorem Outlet.timed_current (t : Outlet) (air : AirTime) (delay : Nat) : (t.timed air delay).sched.current = t.sched.current := by
  unfold Outlet.timed
  split
  · rfl
  · split <;> rfl

theorem Outlet.stepped_but_sched (t : Outlet) (air : AirTime) (delay : Nat) :
    { t.stepped.timed air delay with sched := t.sched } = t :=
  (congrArg (fun v : Outlet => { v with sched := t.sched }) (t.stepped.timed_but_sched air delay) :)

/-- A step of air time changes the schedules alone, and every current segment has seen it. -/
theorem State.stepTime_reschedules (s : State) (cause : StepCause) (new : AirTime) (ref : RefState) :
    Reschedules s (s.stepTime cause new ref) ∧
      ∀ (o : OutletId) (c : Current), (s.stepTime cause new ref).current o = some c → c.timeStepSeen = true := by
  unfold State.stepTime
  dsimp only
  generalize written : ((s.modTime fun b => { b with air := new }).create _).raiseBoth .time = u
  have before : Reschedules s u := written ▸ ((Reschedules.modTime s _).trans (.create _ _)).trans (.raiseBoth _ _)
  obtain ⟨outlets, deferred⟩ := u.stepScheduler_turns
  refine ⟨before.trans ⟨fun o => ?_, deferred⟩, fun o c current => ?_⟩
  · rw [outlets o]
    exact Outlet.stepped_but_sched _ _ _
  · rw [State.current, outlets o, Outlet.timed_current] at current
    obtain ⟨d, -, seen⟩ := Option.map_eq_some_iff.mp current
    rw [← seen]

/-! ### Told, from further back -/

theorem Told.back {s t u : State} {d : Draft} (h : Told t u d) (k : ∃ ds : List Draft, t.evidence = ds.foldl Evidence.create s.evidence) :
    Told s u d := by
  obtain ⟨later, evidence, mem⟩ := h
  obtain ⟨earlier, before⟩ := k
  exact ⟨earlier ++ later, by rw [evidence, before, List.foldl_append], List.mem_append_right earlier mem⟩

/-! ### A pending set applied (R24) -/

theorem SetApplied.back {s t u : State} {x : PendingSet} {old : AirTime} {ref : RefState} (h : SetApplied t u x old ref)
    (k : ∃ ds : List Draft, t.evidence = ds.foldl Evidence.create s.evidence) : SetApplied s u x old ref := by
  obtain ⟨air, r, pending, flags, told, seen, answered⟩ := h
  exact ⟨air, r, pending, flags, told.back k, seen, answered⟩

theorem SetApplied.refresh {s u : State} {x : PendingSet} {old : AirTime} {ref : RefState} (h : SetApplied s u x old ref) :
    SetApplied s u.refresh x old ref := by
  obtain ⟨air, r, pending, flags, told, seen, answered⟩ := h
  refine ⟨air, r, pending, fun l => ?_, told, seen, ?_⟩
  · rw [State.refresh_link]
    exact flags l
  · rw [State.refresh_link]
    exact answered

/-- A set is answered after its step. -/
theorem State.answerSet_applied {s u : State} {p : PendingSet} {old : AirTime} {ref : RefState} (air : u.time.air = p.value)
    (r : u.time.ref = ref) (flags : ∀ l : Link, (u.link l).flags.time = true)
    (told : Told s u { outlet := none, stamp := p.value,
                       body := .timeStep .set old p.value ((p.value.frames : Int) - old.frames) ref })
    (seen : ∀ (o : OutletId) (c : Current), u.current o = some c → c.timeStepSeen = true) :
    SetApplied s (u.answerSet p old ref) p old ref := by
  refine ⟨air, r, rfl, fun l => ?_, told, seen, ?_⟩
  · refine Eq.trans ?_ (flags l)
    unfold State.answerSet State.respond
    cases p.link <;> cases l <;> rfl
  · unfold State.answerSet State.respond
    rw [State.modLink_link]
    exact List.getLast?_concat ..

theorem State.applySet_applied (s : State) (p : PendingSet) : SetApplied s (s.applySet p) p s.time.air s.time.settled := by
  obtain ⟨-, told, flags⟩ := s.stepTime_spec .set p.value s.time.settled
  obtain ⟨-, seen⟩ := s.stepTime_reschedules .set p.value s.time.settled
  have time := s.stepTime_time .set p.value s.time.settled
  unfold State.applySet
  dsimp only
  generalize s.stepTime .set p.value s.time.settled = u at told flags seen time
  exact State.answerSet_applied (congrArg TimeBase.air time) rfl flags told seen

theorem State.applySet_reschedules (s : State) (p : PendingSet) : Reschedules s (s.applySet p) :=
  ((s.stepTime_reschedules .set p.value s.time.settled).1.trans (.modTime _ _)).trans ((Reschedules.modTime _ _).trans (.respond _ _ _ _ _ _))

/-! ### What ticks and steps leave beside the outlets, the ports, the evidence and the Time Base -/

theorem TickFrame.trans {s t u : State} (h : TickFrame s t) (k : TickFrame t u) : TickFrame s u :=
  (congrArg (fun v : State =>
    { v with time := s.time, outlets := s.outlets, links := s.links, evidence := s.evidence, free := s.free }) k :).trans h

theorem TickFrame.modTime (s : State) (f : TimeBase → TimeBase) : TickFrame s (s.modTime f) := rfl

theorem Grows.tickFrame {s t : State} (h : Grows s t) : TickFrame s t := congrArg (fun v : State => { v with time := s.time }) h.frame

theorem TickFrame.refresh (s : State) : TickFrame s s.refresh := rfl

theorem TickFrame.stepTime (s : State) (cause : StepCause) (new : AirTime) (ref : RefState) : TickFrame s (s.stepTime cause new ref) :=
  (TickFrame.modTime s _).trans (s.stepTime_spec cause new ref).1.tickFrame

theorem TickFrame.pulseTick (s : State) : TickFrame s s.pulseTick := s.tick_frame.trans (.modTime _ _)

theorem TickFrame.answerSet (s : State) (p : PendingSet) (old : AirTime) (ref : RefState) : TickFrame s (s.answerSet p old ref) := rfl

theorem TickFrame.applySet (s : State) (p : PendingSet) : TickFrame s (s.applySet p) :=
  ((TickFrame.stepTime s _ _ _).trans (.modTime _ _)).trans (.answerSet _ _ _ _)

/-! ### A tick for a frame pulse -/

theorem State.pulseTick_reported {s b : State} (air : b.time.air = s.time.air) (outlets : ∀ o : OutletId, b.outlet o = s.outlet o)
    (deferred : ∀ l : Link, (b.link l).deferred = (s.link l).deferred) : TickReported s b.pulseTick :=
  ((air ▸ b.tick_ticked : Ticked b (nextFrame s.time.air) b.tick).reported outlets deferred).kept (.modTime _ _)

theorem State.pulseTick_scheduled {s b : State} (air : b.time.air = s.time.air) (outlets : ∀ o : OutletId, b.outlet o = s.outlet o)
    (settings : b.settings = s.settings) : TickScheduled s b.pulseTick :=
  ((air ▸ b.tick_ticked : Ticked b (nextFrame s.time.air) b.tick).scheduled outlets settings).modTime _

theorem State.pulseTick_records (s : State) : ∃ ds : List Draft, s.pulseTick.evidence = ds.foldl Evidence.create s.evidence :=
  s.tick_spec.records

end Sys2Proof.Machine
end

section
/-! Frame pulses, second pulses, the missing-pulse watchdog and the local oscillator (R17 to R24). -/

namespace Sys2Proof.Machine

/-! ### Rounding and stepping (R21) -/

theorem AirTime.rounded_eq (a : AirTime) :
    a.rounded = { seconds := if 13 ≤ a.frame.val then a.seconds + 1 else a.seconds, frame := 0 } := by
  unfold AirTime.rounded
  split <;> rfl

theorem nextFrame_frame_eq_zero (a : AirTime) : (nextFrame a).frame = 0 ↔ a.frame.val = 24 := by
  unfold nextFrame
  split
  · rename_i last
    exact iff_of_true rfl last
  · rename_i inside
    refine iff_of_false (fun h => ?_) inside
    have next : (a.frame.val + 1) % 25 = 0 := congrArg Fin.val h
    omega

/-! ### A lock (R21) -/

theorem Reschedules.enterLocked (s : State) (step : Int) : Reschedules s (s.enterLocked step) :=
  ((Reschedules.modTime s _).trans (.create _ _)).trans (.raiseBoth _ _)

theorem TickFrame.enterLocked (s : State) (step : Int) : TickFrame s (s.enterLocked step) := rfl

theorem State.enterLocked_told (s : State) (step : Int) :
    Told s (s.enterLocked step)
      { outlet := none, stamp := s.time.air, body := .referenceRestored s.time.holdoverTicks step } :=
  ⟨[_], rfl, by simp⟩

theorem State.enterLocked_flags (s : State) (step : Int) (l : Link) : ((s.enterLocked step).link l).flags.time = true :=
  State.raiseBoth_raises _ .time l

theorem Told.records {s t : State} {d : Draft} (h : Told s t d) : ∃ ds : List Draft, t.evidence = ds.foldl Evidence.create s.evidence :=
  let ⟨ds, evidence, _⟩ := h
  ⟨ds, evidence⟩

/-- A record told of stays told of when more are written. -/
theorem Told.more {s t u : State} {d : Draft} (h : Told s t d) (k : ∃ ds : List Draft, u.evidence = ds.foldl Evidence.create t.evidence) :
    Told s u d := by
  obtain ⟨earlier, before, mem⟩ := h
  obtain ⟨later, evidence⟩ := k
  exact ⟨earlier ++ later, by rw [evidence, before, List.foldl_append], List.mem_append_left later mem⟩

/-- A lock's settling of air time to `new`, from the state after its tick (R21, R24). -/
structure Settles (s : State) (new : AirTime) (u : State) : Prop where
  time : u.time = { s.time with air := new, ref := .locked, pendingSet := none }
  flags : ∀ l : Link, (u.link l).flags.time = true
  restored : Told s u
    { outlet := none, stamp := new,
      body := .referenceRestored s.time.holdoverTicks ((new.frames : Int) - s.time.air.frames) }
  stepped : s.time.pendingSet = none → new ≠ s.time.air →
    Told s u { outlet := none, stamp := new,
               body := .timeStep .lock s.time.air new ((new.frames : Int) - s.time.air.frames) .locked }
  applied : ∀ x : PendingSet, s.time.pendingSet = some x → SetApplied s u x s.time.air .locked
  outlets : Reschedules s u
  frame : TickFrame s u

/-- With no set pending a lock rounds air time to the nearest second. -/
theorem State.lockStep_of_none {s : State} (pending : s.time.pendingSet = none) : Settles s s.time.air.rounded s.lockStep := by
  unfold State.lockStep
  rw [pending]
  dsimp only
  have finish : ∀ u : State, u.time = { s.time with air := s.time.air.rounded } →
      (∃ ds : List Draft, u.evidence = ds.foldl Evidence.create s.evidence) → Reschedules s u → TickFrame s u →
      (s.time.air.rounded ≠ s.time.air →
        Told s u { outlet := none, stamp := s.time.air.rounded,
                   body := .timeStep .lock s.time.air s.time.air.rounded
                    ((s.time.air.rounded.frames : Int) - s.time.air.frames) .locked }) →
      Settles s s.time.air.rounded (u.enterLocked (s.time.air.stepTo s.time.air.rounded)) := by
    intro u time records outlets frame stepped
    have told := u.enterLocked_told (s.time.air.stepTo s.time.air.rounded)
    refine ⟨?_, u.enterLocked_flags _, ?_, fun _ moved => (stepped moved).more told.records, fun x some => ?_,
      outlets.trans (.enterLocked u _), frame.trans (.enterLocked u _)⟩
    · rw [State.enterLocked_time, time]
      exact congrArg (fun x => { s.time with air := s.time.air.rounded, ref := .locked, pendingSet := x }) pending
    · rw [time] at told
      exact told.back records
    · rw [pending] at some
      cases some
  split
  · rename_i same
    exact finish s (by rw [same]) ⟨[], rfl⟩ (.of_same rfl fun _ => rfl) rfl fun moved => absurd same moved
  · obtain ⟨grown, told, -⟩ := s.stepTime_spec .lock s.time.air.rounded .locked
    exact finish _ (s.stepTime_time _ _ _) told.records (s.stepTime_reschedules _ _ _).1 (.stepTime s _ _ _) fun _ => told

/-- A pending set takes the place of the rounding. -/
theorem State.lockStep_of_some {s : State} {p : PendingSet} (pending : s.time.pendingSet = some p) : Settles s p.value s.lockStep := by
  obtain ⟨-, told, flags⟩ := s.stepTime_spec .set p.value .locked
  obtain ⟨outlets, seen⟩ := s.stepTime_reschedules .set p.value .locked
  have time := s.stepTime_time .set p.value .locked
  have frame := TickFrame.stepTime s .set p.value .locked
  unfold State.lockStep
  rw [pending]
  dsimp only
  generalize s.stepTime .set p.value .locked = u at told flags outlets seen time frame
  have restored := u.enterLocked_told (s.time.air.stepTo p.value)
  rw [time] at restored
  refine ⟨?_, fun l => ?_, restored.back told.records, fun none => ?_, fun x some => ?_,
    (outlets.trans (.enterLocked u _)).trans ((Reschedules.modTime _ _).trans (.respond _ _ _ _ _ _)),
    (frame.trans (.enterLocked u _)).trans (.answerSet _ _ _ _)⟩
  · rw [State.answerSet_time, State.enterLocked_time, time]
  · refine Eq.trans ?_ (u.enterLocked_flags (s.time.air.stepTo p.value) l)
    unfold State.answerSet State.respond
    cases p.link <;> cases l <;> rfl
  · rw [pending] at none
    cases none
  · cases pending.symm.trans some
    refine State.answerSet_applied ?_ rfl (u.enterLocked_flags _) (told.more restored.records) seen
    rw [State.enterLocked_time, time]

end Sys2Proof.Machine
end

section
/-! What each event of the Time Base does: frame pulses, second pulses, a missing pulse and the local oscillator (R17 to R24). -/

namespace Sys2Proof.Machine

/-! ### A lock whole (R21) -/

theorem TimeBase.tick_eq (b : TimeBase) : b.tick =
    { b with air := nextFrame b.air
             holdoverTicks := if b.ref = .holdover then min 4294967295 (b.holdoverTicks + 1) else b.holdoverTicks } := by
  unfold TimeBase.tick
  rw [AirTime.tick_eq]
  rfl

/-- What a lock settles after its tick is what the obligation speaks of, from the state before the tick. -/
theorem Settles.lockTaken {s t u : State} {new : AirTime} (h : Settles t new u) (air : t.time.air = nextFrame s.time.air)
    (ticks : t.time.holdoverTicks = min 4294967295 (s.time.holdoverTicks + 1)) (oscillator : t.time.oscillator = none)
    (pending : t.time.pendingSet = s.time.pendingSet) (reported : TickReported s t) (frame : TickFrame s t)
    (records : ∃ ds : List Draft, t.evidence = ds.foldl Evidence.create s.evidence)
    (rounded : s.time.pendingSet = none → new = (nextFrame s.time.air).rounded)
    (set : ∀ x : PendingSet, s.time.pendingSet = some x → new = x.value) : LockTaken s u := by
  obtain ⟨time, flags, restored, stepped, applied, outlets, after⟩ := h
  rw [air, ticks] at restored
  rw [air, pending] at stepped
  rw [air, pending] at applied
  unfold LockTaken
  intro old new' step
  have same : new' = new := by
    simp only [new', old]
    cases held : s.time.pendingSet with
    | some x => exact (set x held).symm
    | none => exact ((rounded held).trans (AirTime.rounded_eq _)).symm
  have length : step = (new.frames : Int) - (nextFrame s.time.air).frames := by simp only [step, old, same]
  rw [length, same]
  exact ⟨(congrArg TimeBase.air time :), (congrArg TimeBase.ref time :), (congrArg TimeBase.oscillator time :).trans oscillator,
    (congrArg TimeBase.pendingSet time :), flags, restored.back records, fun none moved => (stepped none moved).back records,
    fun x some => (applied x some).back records, frame.trans after, reported.kept outlets⟩

theorem LockTaken.refresh {s u : State} (h : LockTaken s u) : LockTaken s u.refresh := by
  obtain ⟨air, ref, oscillator, pending, flags, restored, stepped, applied, frame, reported⟩ := h
  refine ⟨air, ref, oscillator, pending, fun l => ?_, restored, stepped, fun x some => (applied x some).refresh, frame,
    reported.kept (.refresh u)⟩
  rw [State.refresh_link]
  exact flags l

/-- A lock from a state whose Time Base has noted its pulse. -/
theorem State.lock_taken {s : State} {f : TimeBase → TimeBase} (holdover : (f s.time).ref = .holdover)
    (air : (f s.time).air = s.time.air) (ticks : (f s.time).holdoverTicks = s.time.holdoverTicks)
    (pending : (f s.time).pendingSet = s.time.pendingSet) :
    LockTaken s (s.modTime f).lock.refresh ∧ (s.modTime f).lock.refresh.time.previous = (f s.time).previous ∧
      (s.modTime f).lock.refresh.time.qualification = (f s.time).qualification ∧
      (s.modTime f).lock.refresh.time.pulseTick = some (nextFrame s.time.air) := by
  have reported : TickReported s ((s.modTime f).modTime fun b => { b with oscillator := none }).pulseTick :=
    State.pulseTick_reported air (fun _ => rfl) fun _ => rfl
  have frame : TickFrame s ((s.modTime f).modTime fun b => { b with oscillator := none }).pulseTick :=
    (TickFrame.modTime s fun b => { f b with oscillator := none }).trans (.pulseTick _)
  have records := ((s.modTime f).modTime fun b => { b with oscillator := none }).pulseTick_records
  have time := ((s.modTime f).modTime fun b => { b with oscillator := none }).pulseTick_time
  rw [TimeBase.tick_eq] at time
  unfold State.lock
  generalize ((s.modTime f).modTime fun b => { b with oscillator := none }).pulseTick = t at reported frame records time
  have now : t.time.air = nextFrame s.time.air := by
    rw [time]
    exact congrArg nextFrame air
  have count : t.time.holdoverTicks = min 4294967295 (s.time.holdoverTicks + 1) := by
    rw [time, ← ticks]
    exact if_pos holdover
  have held : t.time.pendingSet = s.time.pendingSet := by rw [time]; exact pending
  have stopped : t.time.oscillator = none := (congrArg TimeBase.oscillator time :)
  have rest : t.time.previous = (f s.time).previous ∧ t.time.qualification = (f s.time).qualification ∧
      t.time.pulseTick = some (nextFrame s.time.air) := by
    rw [time]
    exact ⟨rfl, rfl, congrArg (fun a => some (nextFrame a)) air⟩
  have finish : ∀ new : AirTime, Settles t new t.lockStep → (s.time.pendingSet = none → new = (nextFrame s.time.air).rounded) →
      (∀ x : PendingSet, s.time.pendingSet = some x → new = x.value) →
      LockTaken s t.lockStep.refresh ∧ t.lockStep.refresh.time.previous = (f s.time).previous ∧
        t.lockStep.refresh.time.qualification = (f s.time).qualification ∧
        t.lockStep.refresh.time.pulseTick = some (nextFrame s.time.air) := by
    intro new settled rounded set
    refine ⟨(settled.lockTaken now count stopped held reported frame records rounded set).refresh, ?_⟩
    rw [State.refresh_time, settled.time]
    exact rest
  cases waiting : s.time.pendingSet with
  | some p => exact finish _ (State.lockStep_of_some (held.trans waiting)) (by simp [waiting]) fun x some =>
      congrArg PendingSet.value (Option.some.inj (waiting.symm.trans some))
  | none => exact finish _ (State.lockStep_of_none (held.trans waiting)) (fun _ => by rw [now]) (by simp [waiting])

/-! ### A mark (R18) -/

section
variable {s : State}

theorem State.markPulse_of_unset (unset : s.time.ref = .unset) (ticked : Bool) : s.markPulse ticked = s := by
  simp [State.markPulse, unset]

theorem State.markPulse_of_holdover (holdover : s.time.ref = .holdover) (ticked : Bool) :
    s.markPulse ticked = if s.time.qualification = 25 then s.lock else s := by
  simp [State.markPulse, holdover]

theorem State.markPulse_of_none (locked : s.time.ref = .locked) (none : s.time.pendingSet = none) (ticked : Bool) :
    s.markPulse ticked = s := by
  simp [State.markPulse, locked, none]

theorem State.markPulse_of_some {p : PendingSet} (locked : s.time.ref = .locked) (pending : s.time.pendingSet = some p) (ticked : Bool) :
    s.markPulse ticked = (if ticked then s else s.pulseTick).applySet p := by
  simp [State.markPulse, locked, pending]

end

/-! ### The local oscillator (R17, R24) -/

theorem exec_localOscillatorExpiry_of_running {s : State} {t : Instant} (powered : s.powered = true) (running : s.time.oscillator = some t) :
    exec .localOscillatorExpiry s = .next (s.expire t).refresh := by
  show execLocalOscillatorExpiry s = _
  rw [execLocalOscillatorExpiry, running]
  exact if_pos powered

/-- The tick of an expiry, with the next expiry set. -/
def State.expired (s : State) (t : Instant) : State := (s.modTime fun b => { b with oscillator := some (t + oscillatorPeriod) }).tick

theorem State.expired_time (s : State) (t : Instant) : (s.expired t).time =
    { s.time with
      air := nextFrame s.time.air
      oscillator := some (t + 40000000)
      holdoverTicks := if s.time.ref = .holdover then min 4294967295 (s.time.holdoverTicks + 1) else s.time.holdoverTicks } := by
  unfold State.expired
  rw [State.tick_time, TimeBase.tick_eq]
  rfl

theorem State.expired_ticked (s : State) (t : Instant) :
    Ticked (s.modTime fun b => { b with oscillator := some (t + oscillatorPeriod) }) (nextFrame s.time.air) (s.expired t) :=
  State.tick_ticked _

theorem State.expired_frame (s : State) (t : Instant) : TickFrame s (s.expired t) := (TickFrame.modTime s _).trans (State.tick_frame _)

theorem State.expired_reported (s : State) (t : Instant) : TickReported s (s.expired t) :=
  (s.expired_ticked t).reported (fun _ => rfl) fun _ => rfl

theorem State.expired_scheduled (s : State) (t : Instant) : TickScheduled s (s.expired t) :=
  (s.expired_ticked t).scheduled (fun _ => rfl) rfl

theorem State.expire_of_kept {s : State} (kept : s.time.pendingSet = none ∨ s.time.air.frame.val ≠ 24) (t : Instant) :
    s.expire t = s.expired t := by
  have time := s.expired_time t
  unfold State.expire
  dsimp only
  unfold State.expired at time ⊢
  generalize (s.modTime fun b => { b with oscillator := some (t + oscillatorPeriod) }).tick = u at time ⊢
  rw [time]
  cases pending : s.time.pendingSet with
  | none => rfl
  | some p =>
    refine if_neg fun zero => ?_
    exact kept.elim (by simp [pending]) fun inside => inside ((nextFrame_frame_eq_zero _).mp zero)

theorem State.expire_of_set {s : State} {p : PendingSet} (pending : s.time.pendingSet = some p) (last : s.time.air.frame.val = 24)
    (t : Instant) : s.expire t = (s.expired t).applySet p := by
  have time := s.expired_time t
  unfold State.expire
  dsimp only
  unfold State.expired at time ⊢
  generalize (s.modTime fun b => { b with oscillator := some (t + oscillatorPeriod) }).tick = u at time ⊢
  rw [time, pending]
  exact if_pos ((nextFrame_frame_eq_zero _).mpr last)

/-- Settles O21: the tick's outlets, ports, records and flags, and the set that its frame 0 applies. -/
theorem oscillatorTick : Obligations.OscillatorTick := by
  intro s t powered running
  have done := exec_localOscillatorExpiry_of_running powered running
  have ticked := s.expired_ticked t
  have reported := s.expired_reported t
  have scheduled := s.expired_scheduled t
  have frame := s.expired_frame t
  have time := s.expired_time t
  constructor
  · intro kept
    rw [State.expire_of_kept kept] at done
    generalize s.expired t = u at done ticked reported scheduled frame time
    refine ⟨u.refresh, done, frame, reported.kept (.refresh u), scheduled.refresh, ?_, fun l => ⟨fun x => ?_, ?_⟩, time⟩
    · obtain ⟨records, perm, evidence⟩ := ticked.evidence
      exact ⟨records, perm.trans (.of_eq (tickDrafts_eq s)), evidence⟩
    · rw [State.refresh_link, tickBreach_iff]
      exact ticked.flags l x
    · obtain ⟨order, perm, port⟩ := ticked.links l
      refine ⟨order, perm, ?_⟩
      rw [State.refresh_link]
      exact (congrArg (fun p : LinkPort =>
        { p with deferred := (u.link l).deferred, flags := (u.link l).flags, attention := (u.refresh.link l).attention }) port :)
  · intro p pending last ref
    rw [State.expire_of_set pending last] at done
    have applied := (s.expired t).applySet_applied p
    have rescheduled := (s.expired t).applySet_reschedules p
    have after := TickFrame.applySet (s.expired t) p
    have settled : (s.expired t).time.settled = ref := by
      simp only [time, TimeBase.settled, ref]
      cases s.time.ref <;> rfl
    obtain ⟨records, -, evidence⟩ := ticked.evidence
    generalize s.expired t = u at done ticked reported frame time applied rescheduled after settled evidence
    rw [settled, time] at applied
    exact ⟨_, done, (TickFrame.trans frame after).trans (.refresh _), reported.kept (rescheduled.trans (.refresh _)),
      (applied.back ⟨records, evidence⟩).refresh⟩

end Sys2Proof.Machine
end

section
/-! Frame pulses, second pulses and missing pulses, row by row (R18 to R21, R24). -/

namespace Sys2Proof.Machine

/-! ### A tick of a Time Base that has noted something first -/

/-- A tick for a pulse: what it reports, and its Time Base. -/
theorem State.pulseTick_spec (s : State) {f : TimeBase → TimeBase} (air : (f s.time).air = s.time.air) :
    TickFrame s (s.modTime f).pulseTick ∧ TickReported s (s.modTime f).pulseTick ∧ TickScheduled s (s.modTime f).pulseTick ∧
      (∃ ds : List Draft, (s.modTime f).pulseTick.evidence = ds.foldl Evidence.create s.evidence) ∧
      (s.modTime f).pulseTick.time =
        { f s.time with
          air := nextFrame s.time.air
          holdoverTicks := if (f s.time).ref = .holdover then min 4294967295 ((f s.time).holdoverTicks + 1) else (f s.time).holdoverTicks
          pulseTick := some (nextFrame s.time.air) } := by
  refine ⟨(TickFrame.modTime s f).trans (.pulseTick _), State.pulseTick_reported air (fun _ => rfl) fun _ => rfl,
    State.pulseTick_scheduled air (fun _ => rfl) rfl, (s.modTime f).pulseTick_records, ?_⟩
  rw [State.pulseTick_time, TimeBase.tick_eq, ← air]
  rfl

/-- A pending set applied in LOCKED. -/
theorem State.applySet_locked {s u : State} {p : PendingSet} {old : AirTime} (locked : u.time.ref = .locked) (air : u.time.air = old)
    (frame : TickFrame s u) (records : ∃ ds : List Draft, u.evidence = ds.foldl Evidence.create s.evidence) :
    TickFrame s (u.applySet p).refresh ∧ SetApplied s (u.applySet p).refresh p old .locked ∧
      (u.applySet p).refresh.time = { u.time with air := p.value, oscillator := none, pendingSet := none } := by
  have settled : u.time.settled = .locked := by simp [TimeBase.settled, locked]
  have applied := u.applySet_applied p
  rw [settled, air] at applied
  refine ⟨(TickFrame.trans frame (.applySet u p)).trans (.refresh _), (applied.back records).refresh, ?_⟩
  rw [State.refresh_time, State.applySet_time, settled, TimeBase.enter]
  simp [locked]

/-! ### Missing pulses (R20) -/

theorem State.missPulse_of_unlocked {s : State} (unlocked : s.time.ref ≠ .locked) (t : Instant) :
    s.missPulse t = s.modTime fun b => { b with previous := none, qualification := 0 } :=
  if_neg unlocked

/-- The state in which a missing pulse in LOCKED takes its tick. -/
def State.lostReference (s : State) (t : Instant) : State :=
  ((((s.modTime fun b => { b with previous := none, qualification := 0 }).createNow none (.referenceLost s.lastPulseTick)).raiseBoth
    .time).useFree 1).modTime fun b => { b with ref := .holdover, holdoverTicks := 0, oscillator := some (t + oscillatorPeriod) }

theorem State.lostReference_frame (s : State) (t : Instant) : TickFrame s (s.lostReference t) :=
  ((TickFrame.modTime s _).trans (((Grows.create _ _).trans (.raiseBoth _ _)).trans (.useFree _ 1)).tickFrame).trans (.modTime _ _)

theorem State.missPulse_of_locked {s : State} (locked : s.time.ref = .locked) (t : Instant) : s.missPulse t = (s.lostReference t).tick :=
  if_pos locked

theorem State.lostReference_spec (s : State) (t : Instant) :
    (∀ l : Link, ((s.lostReference t).link l).deferred = (s.link l).deferred ∧ ((s.lostReference t).link l).flags.has .time = true) ∧
      (s.lostReference t).outlets = s.outlets ∧ (s.lostReference t).settings = s.settings ∧
      (s.lostReference t).time =
        { s.time with
          previous := none, qualification := 0, ref := .holdover, holdoverTicks := 0, oscillator := some (t + oscillatorPeriod) } ∧
      (s.lostReference t).evidence =
        s.evidence.create { outlet := none, stamp := s.time.air, body := .referenceLost s.lastPulseTick } :=
  ⟨fun l => ⟨by cases l <;> rfl, State.raiseBoth_raises _ .time l⟩, rfl, rfl, rfl, rfl⟩

theorem exec_missingPulse_of_running {s : State} {p : Instant} (powered : s.powered = true) (previous : s.time.previous = some p) :
    exec .missingPulse s = .next (s.missPulse (p + ms 60)).refresh :=
  (exec_missingPulse_of_previous previous).trans ((when_next _ _ _).trans (congrArg _ (if_pos powered)))

/-- Settles O20: REFERENCE_LOST and the flags come before the tick, which is reported as every tick is. -/
theorem missingPulseEffects : Obligations.MissingPulseEffects := by
  intro s p powered previous
  have done := exec_missingPulse_of_running powered previous
  refine ⟨fun locked => ?_, fun unlocked => ?_⟩
  · rw [State.missPulse_of_locked locked] at done
    obtain ⟨links, outlets, settings, time, evidence⟩ := s.lostReference_spec (p + ms 60)
    have frame := s.lostReference_frame (p + ms 60)
    have expiry : p + ms 60 + oscillatorPeriod = p + 100000000 := Nat.add_assoc p (ms 60) oscillatorPeriod
    rw [expiry] at time
    generalize s.lostReference (p + ms 60) = b at done links outlets settings time evidence frame
    have outlet : ∀ o : OutletId, b.outlet o = s.outlet o := fun o => congrArg (fun v : Vector Outlet 8 => v[o]) outlets
    have air : b.time.air = s.time.air := (congrArg TimeBase.air time :)
    have ticked : Ticked b (nextFrame s.time.air) b.tick := air ▸ b.tick_ticked
    refine ⟨_, done, ?_, fun l => ?_, (TickFrame.trans frame b.tick_frame).trans (.refresh _),
      (ticked.reported outlet fun l => (links l).1).kept (.refresh _), (ticked.scheduled outlet settings).refresh,
      fun a taken room => ?_⟩
    · rw [State.refresh_time, State.tick_time, TimeBase.tick_eq, time]
      rfl
    · rw [State.refresh_link]
      exact b.tick_spec.flags l .time (links l).2
    · obtain ⟨more, fifo⟩ := b.tick_spec.fifo
      refine ⟨more, ?_⟩
      rw [State.refresh_evidence, fifo]
      show b.evidence.fifo ++ more = _
      rw [evidence, Evidence.create_room room, State.lastPulseTick, taken]
      exact List.append_assoc _ _ _
  · rw [done, State.missPulse_of_unlocked unlocked]
    rfl

/-! ### Frame pulses (R18, R19) -/

theorem TimeBase.markedAt_iff (b : TimeBase) (t : Instant) :
    b.markedAt t = true ↔ ∃ q : Instant, b.lastSecond = some q ∧ t ≤ q + 2000000 := by
  unfold TimeBase.markedAt
  cases b.lastSecond with
  | none => simp
  | some q =>
    simp only [Option.some.injEq, exists_eq_left']
    exact decide_eq_true_iff

/-- A frame pulse noted as accepted and counted (R18, R19). -/
def TimeBase.acceptedAt (b : TimeBase) (t : Instant) (wellSpaced : Bool) : TimeBase :=
  { b.notePulse t true with previous := some t, qualification := b.qualify wellSpaced }

section
variable {s : State} {t : Instant}

theorem State.framePulse_of_early {p : Instant} (previous : s.time.previous = some p) (early : t - p < 38000000) :
    s.framePulse t = s.modTime fun b => b.notePulse t false := by
  unfold State.framePulse
  rw [TimeBase.spacing_of_previous previous, if_pos early]

/-- An accepted frame pulse, with the count it leaves. -/
theorem State.framePulse_of_accepted (spaced : ∀ p : Instant, s.time.previous = some p → 38000000 ≤ t - p) :
    ∃ w : Bool, s.framePulse t = s.acceptPulse t w ∧ (s.time.previous = none → s.time.qualify w = 1) ∧
      ∀ p : Instant, s.time.previous = some p →
        s.time.qualify w = if t - p ≤ 42000000 then min 25 (s.time.qualification + 1) else 1 := by
  unfold State.framePulse
  cases previous : s.time.previous with
  | none =>
    rw [TimeBase.spacing_of_none previous]
    exact ⟨false, rfl, fun _ => rfl, nofun⟩
  | some p =>
    rw [TimeBase.spacing_of_previous previous, if_neg (Nat.not_lt.mpr (spaced p previous))]
    by_cases near : t - p ≤ 42000000
    · rw [if_pos near]
      exact ⟨true, rfl, nofun, fun q same => by cases same; exact (if_pos near).symm⟩
    · rw [if_neg near]
      exact ⟨false, rfl, nofun, fun q same => by cases same; exact (if_neg near).symm⟩

theorem State.acceptPulse_of_locked (locked : s.time.ref = .locked) (w : Bool) :
    s.acceptPulse t w =
      if s.time.markedAt t then ((s.modTime fun b => b.acceptedAt t w).pulseTick).markPulse true
      else (s.modTime fun b => b.acceptedAt t w).pulseTick := by
  simp [State.acceptPulse, locked, TimeBase.acceptedAt]

theorem State.acceptPulse_of_unlocked (unlocked : s.time.ref ≠ .locked) (w : Bool) :
    s.acceptPulse t w =
      if s.time.markedAt t then (s.modTime fun b => b.acceptedAt t w).markPulse false else s.modTime fun b => b.acceptedAt t w := by
  have other : (s.time.ref == .locked) = false := by simpa using unlocked
  unfold State.acceptPulse
  rw [other]
  rfl

end

/-- Settles O18: the rows of the pulse's spacing, the reference state, the mark and the pending set. -/
theorem framePulseEffects : Obligations.FramePulseEffects := by
  intro s t powered inTime marked count
  have done : exec (.framePulse t) s = .next (s.framePulse t).refresh := by
    rw [exec_framePulse, State.settleWatchdog_of_le inTime, when_next, if_pos powered]
  have mark : s.time.markedAt t = true ↔ marked := s.time.markedAt_iff t
  refine ⟨fun spaced => ?_, fun p previous early => ?_⟩
  · obtain ⟨w, accepted, first, next⟩ := State.framePulse_of_accepted spaced
    have counted : s.time.qualify w = count := by
      simp only [count]
      cases previous : s.time.previous with
      | none => exact first previous
      | some p => exact next p previous
    rw [accepted] at done
    refine ⟨fun locked plain => ?_, fun x locked isMarked pending => ?_, fun holdover isMarked full => ?_, fun free => ?_⟩
    · obtain ⟨frame, reported, scheduled, -, time⟩ := s.pulseTick_spec (f := fun b => b.acceptedAt t w) rfl
      have ticks : (if s.time.ref = .holdover then min 4294967295 (s.time.holdoverTicks + 1) else s.time.holdoverTicks) =
          s.time.holdoverTicks := if_neg (by simp [locked])
      have same : s.acceptPulse t w = (s.modTime fun b => b.acceptedAt t w).pulseTick := by
        rw [State.acceptPulse_of_locked locked]
        split
        · rename_i isMarked
          have none := plain.resolve_right fun h => h (mark.mp isMarked)
          exact State.markPulse_of_none (by rw [time]; exact locked) (by rw [time]; exact none) true
        · rfl
      rw [same] at done
      generalize (s.modTime fun b => b.acceptedAt t w).pulseTick = u at done frame reported scheduled time
      refine ⟨u.refresh, done, ?_, ?_, ?_, ?_, ?_, ?_, ?_, frame.trans (.refresh u), reported.kept (.refresh u), scheduled.refresh⟩ <;>
        rw [State.refresh_time, time]
      · exact locked
      · rfl
      · rfl
      · exact ticks
      · rfl
    · obtain ⟨frame, reported, -, records, time⟩ := s.pulseTick_spec (f := fun b => b.acceptedAt t w) rfl
      rw [State.acceptPulse_of_locked locked, if_pos (mark.mpr isMarked),
        State.markPulse_of_some (by rw [time]; exact locked) (by rw [time]; exact pending), if_pos rfl] at done
      have rescheduled := ((s.modTime fun b => b.acceptedAt t w).pulseTick).applySet_reschedules x
      generalize (s.modTime fun b => b.acceptedAt t w).pulseTick = u at done frame reported records time rescheduled
      obtain ⟨after, applied, final⟩ := State.applySet_locked (p := x) (by rw [time]; exact locked) (by rw [time]) frame records
      refine ⟨_, done, ?_, ?_, after, reported.kept (rescheduled.trans (.refresh _)), applied⟩ <;> rw [final, time]
      rfl
    · rw [State.acceptPulse_of_unlocked (by simp [holdover]), if_pos (mark.mpr isMarked),
        State.markPulse_of_holdover (s := s.modTime fun b => b.acceptedAt t w) holdover] at done
      have qualified : (s.modTime fun b => b.acceptedAt t w).time.qualification = 25 := counted.trans full
      rw [if_pos qualified] at done
      obtain ⟨taken, previous, qualification, ticked⟩ := State.lock_taken (s := s) (f := fun b => b.acceptedAt t w) holdover rfl rfl rfl
      exact ⟨_, done, previous, qualification.trans (counted.trans full), ticked, taken⟩
    · have unlocked : s.time.ref ≠ .locked := by
        rcases free with h | h
        · simp [h]
        · simp [h.1]
      have same : s.acceptPulse t w = s.modTime fun b => b.acceptedAt t w := by
        rw [State.acceptPulse_of_unlocked unlocked]
        split
        · rename_i isMarked
          rcases free with unset | ⟨holdover, short⟩
          · exact State.markPulse_of_unset (s := s.modTime fun b => b.acceptedAt t w) unset false
          · rw [State.markPulse_of_holdover (s := s.modTime fun b => b.acceptedAt t w) holdover]
            have few := short.resolve_left fun h => h (mark.mp isMarked)
            exact if_neg fun full => few (counted.symm.trans full)
        · rfl
      rw [same] at done
      exact ⟨_, done, rfl, counted, rfl⟩
  · rw [State.framePulse_of_early previous early] at done
    exact ⟨_, rfl, rfl, done⟩

/-! ### Second pulses (R18) -/

/-- A Time Base whose latest frame pulse is marked, and the second pulse used up. -/
def TimeBase.markLast (b : TimeBase) (p : PulseRecord) : TimeBase := { b with lastPulse := some { p with marked := true }, lastSecond := none }

section
variable {s : State} {t : Instant}

theorem State.secondPulse_of_paired {p : PulseRecord} (last : s.time.lastPulse = some p) (unmarked : p.marked = false)
    (near : t ≤ p.time + 2000000) :
    s.secondPulse t =
      if p.accepted then (s.modTime fun b => b.markLast p).markPulse p.ticked else s.modTime fun b => b.markLast p := by
  have within : t ≤ p.time + ms 2 := near
  have paired : s.time.pairedPulse t = some p := by
    simp [TimeBase.pairedPulse, last, unmarked, within]
  unfold State.secondPulse
  rw [paired]
  rfl

theorem State.secondPulse_of_alone (alone : ∀ p : PulseRecord, s.time.lastPulse = some p → p.time + 2000000 < t) :
    s.secondPulse t = s.modTime fun b => { b with lastSecond := some t } := by
  have unpaired : s.time.pairedPulse t = none := by
    unfold TimeBase.pairedPulse
    cases last : s.time.lastPulse with
    | none => rfl
    | some p =>
      have late : ¬t ≤ p.time + ms 2 := Nat.not_le.mpr (alone p last)
      simp [Option.filter, late]
  unfold State.secondPulse
  rw [unpaired]

theorem exec_secondPulse_of_powered (powered : s.powered = true) : exec (.secondPulse t) s = .next (s.secondPulse t).refresh :=
  if_pos powered

end

/-- Settles O19: the rows of the pulse marked, the reference state and the pending set. -/
theorem lockAtMark : Obligations.LockAtMark := by
  intro s t powered
  have done := exec_secondPulse_of_powered (t := t) powered
  refine ⟨fun p last unmarked near => ?_, fun alone => ?_⟩
  · rw [State.secondPulse_of_paired last unmarked near] at done
    refine ⟨fun holdover full accepted => ?_, fun x locked pending accepted => ?_, fun none => ?_⟩
    · rw [if_pos accepted, State.markPulse_of_holdover (s := s.modTime fun b => b.markLast p) holdover] at done
      have qualified : (s.modTime fun b => b.markLast p).time.qualification = 25 := full
      rw [if_pos qualified] at done
      obtain ⟨taken, previous, qualification, ticked⟩ := State.lock_taken (s := s) (f := fun b => b.markLast p) holdover rfl rfl rfl
      exact ⟨_, done, qualification.trans full, previous, ticked, taken⟩
    · rw [if_pos accepted, State.markPulse_of_some (s := s.modTime fun b => b.markLast p) locked pending] at done
      refine ⟨fun fresh => ?_, fun taken => ?_⟩
      · obtain ⟨frame, reported, -, records, time⟩ := s.pulseTick_spec (f := fun b => b.markLast p) rfl
        rw [if_neg (by simp [fresh])] at done
        have rescheduled := ((s.modTime fun b => b.markLast p).pulseTick).applySet_reschedules x
        generalize (s.modTime fun b => b.markLast p).pulseTick = u at done frame reported records time rescheduled
        obtain ⟨after, applied, final⟩ := State.applySet_locked (p := x) (by rw [time]; exact locked) (by rw [time]) frame records
        refine ⟨_, done, ?_, ?_, after, reported.kept (rescheduled.trans (.refresh _)), applied⟩ <;> rw [final, time]
        rfl
      · rw [if_pos taken] at done
        have rescheduled := (s.modTime fun b => b.markLast p).applySet_reschedules x
        obtain ⟨after, applied, final⟩ := State.applySet_locked (u := s.modTime fun b => b.markLast p) (p := x) locked rfl
          (TickFrame.modTime s _) ⟨[], rfl⟩
        have same := ((Reschedules.modTime s fun b => b.markLast p).trans rescheduled).trans (.refresh _)
        refine ⟨_, done, ?_, ?_, ?_, after, same.outlets, same.deferred, applied⟩ <;> rw [final] <;> rfl
    · have same : (if p.accepted = true then (s.modTime fun b => b.markLast p).markPulse p.ticked
          else s.modTime fun b => b.markLast p) = s.modTime fun b => b.markLast p := by
        split
        · rename_i accepted
          rcases none with refused | unset | ⟨holdover, short⟩ | ⟨locked, nothing⟩
          · simp [refused] at accepted
          · exact State.markPulse_of_unset (s := s.modTime fun b => b.markLast p) unset _
          · rw [State.markPulse_of_holdover (s := s.modTime fun b => b.markLast p) holdover]
            exact if_neg short
          · exact State.markPulse_of_none (s := s.modTime fun b => b.markLast p) locked nothing _
        · rfl
      rw [same] at done
      exact done
  · rw [State.secondPulse_of_alone alone] at done
    exact done

end Sys2Proof.Machine
end

section
/-! Close marks: what keeping the record store through a restart does to the writers and to the pages (R123,
R133). -/

namespace Sys2Proof.Machine

/-! ### Pages closed (R123) -/

/-- Of two states of a page: the second is the first, or the first with its OPEN page closed. -/
def PageEntry.MayClose (e x : PageEntry) : Prop :=
  { x with state := e.state } = e ∧ (x.state = e.state ∨ e.state = .opened ∧ x.state = .closed)

theorem PageEntry.MayClose.refl (e : PageEntry) : e.MayClose e := ⟨rfl, .inl rfl⟩

theorem PageEntry.MayClose.trans {e x y : PageEntry} (h : e.MayClose x) (k : x.MayClose y) : e.MayClose y := by
  obtain ⟨rest, state⟩ := h
  obtain ⟨rest', state'⟩ := k
  refine ⟨(congrArg (fun z : PageEntry => { z with state := e.state }) rest').trans rest, ?_⟩
  rcases state with same | ⟨opened, closed⟩
  · exact same ▸ state'
  · rcases state' with same' | ⟨opened', -⟩
    · exact .inr ⟨opened, same'.trans closed⟩
    · rw [closed] at opened'
      cases opened'

/-- A page that is OPEN afterwards was OPEN before. -/
theorem PageEntry.MayClose.opened {e x : PageEntry} (h : e.MayClose x) (after : x.state = .opened) : e.state = .opened :=
  h.2.elim (fun same => same.symm.trans after) And.left

/-- What the closing of pages can leave: writers, OPEN pages closed, and the reads that waited for the close. -/
structure Closes (s t : State) : Prop where
  frame : { t with outlets := s.outlets, directory := s.directory, links := s.links, free := s.free } = s
  links : ∀ l : Link, (s.link l).deferred = [] → t.link l = s.link l
  canonical : directoryWf s.directory = true → directoryWf t.directory = true
  pages : directoryWf s.directory = true → ∀ n : Nat, (pageAt s.directory n).MayClose (pageAt t.directory n)

theorem Closes.refl (s : State) : Closes s s := ⟨rfl, fun _ _ => rfl, id, fun _ _ => .refl _⟩

theorem Closes.trans {s t u : State} (h : Closes s t) (k : Closes t u) : Closes s u := by
  refine ⟨?_, fun l none => ?_, fun wf => k.canonical (h.canonical wf),
    fun wf n => (h.pages wf n).trans (k.pages (h.canonical wf) n)⟩
  · exact (congrArg (fun v : State =>
      { v with outlets := s.outlets, directory := s.directory, links := s.links, free := s.free }) k.frame).trans h.frame
  · have first := h.links l none
    exact (k.links l (by rw [first]; exact none)).trans first

theorem Closes.modWriter (s : State) (o : OutletId) (f : Writer → Writer) : Closes s (s.modWriter o f) :=
  ⟨rfl, fun _ _ => rfl, id, fun _ _ => .refl _⟩

/-- The listed pages of a ring that are in a state are in it as the directory gives them. -/
theorem State.entry_of_ringPages {s : State} {o : OutletId} (wf : directoryWf s.directory = true) {x : Nat × PageEntry}
    (mem : x ∈ s.ringPages o) : pageAt s.directory x.1 = x.2 :=
  pageAt_of_mem wf (List.mem_of_mem_filter mem)

theorem State.openPage_entry {s : State} {o : OutletId} (wf : directoryWf s.directory = true) {n : Nat} {e : PageEntry}
    (found : s.openPage o = some (n, e)) : pageAt s.directory n = e ∧ e.state = .opened :=
  ⟨State.entry_of_ringPages wf (List.mem_of_find?_eq_some found),
    (PageEntry.inState_iff e .opened).mp (List.find?_some (p := fun x : Nat × PageEntry => x.2.inState .opened) found)⟩

theorem Closes.closePage (s : State) (o : OutletId) : Closes s (s.closePage o) := by
  cases found : s.openPage o with
  | none =>
    rw [State.closePage_of_none found]
    exact .refl s
  | some x =>
    obtain ⟨n, e⟩ := x
    rw [State.closePage_of_some found]
    have canonical (wf : directoryWf s.directory = true) :
        directoryWf (s.modPage n fun e => { e with state := .closed }).directory = true := directoryWf_setPage wf n _
    have entries (m : Nat) := State.pageAt_modPage s n m fun e => { e with state := .closed }
    obtain ⟨tables, frame⟩ := report_spec o n true (s.modPage n fun e => { e with state := .closed })
    generalize report o n true (s.modPage n fun e => { e with state := .closed }) = u at tables frame
    have directory : u.directory = (s.modPage n fun e => { e with state := .closed }).directory :=
      (congrArg State.directory frame :)
    refine ⟨?_, fun l none => ?_, fun wf => directory ▸ canonical wf, fun wf m => ?_⟩
    · exact (congrArg (fun v : State =>
        { v with outlets := s.outlets, directory := s.directory, links := s.links, free := s.free }) frame :)
    · obtain ⟨order, same, reported⟩ := tables l
      have link : (s.modPage n fun e => { e with state := .closed }).link l = s.link l := rfl
      rw [link, none, List.filter_nil] at same
      rw [link, List.perm_nil.mp same, LinkPort.reported_nil, none, List.filter_nil, ← none] at reported
      exact reported
    · obtain ⟨entry, opened⟩ := State.openPage_entry wf found
      rw [directory, entries m]
      split
      · rename_i here
        rw [here, entry]
        exact ⟨rfl, .inr ⟨opened, rfl⟩⟩
      · exact .refl _

theorem Closes.markWriter (s : State) (o : OutletId) : Closes s (s.markWriter o) := by
  unfold State.markWriter
  dsimp only
  split
  · split
    · exact ((Closes.modWriter s o _).trans (.closePage _ o)).trans (.modWriter _ o _)
    · exact .modWriter s o _
  · split
    · exact .modWriter s o _
    · exact .refl s
  · exact .refl s

theorem Closes.foldl (os : List OutletId) (s : State) : Closes s (os.foldl (fun u o => u.markWriter o) s) := by
  induction os generalizing s with
  | nil => exact .refl s
  | cons o os ih => exact (Closes.markWriter s o).trans (ih _)

theorem Closes.keepRecords (s : State) : Closes s s.keepRecords := .foldl allOutlets s

/-! ### The writers (R133) -/

/-- A writer after its close mark: a WRITING one with nothing waiting reaches the mark at once, and an IDLE one is marked only where
records wait (R133). -/
def Writer.marked (w : Writer) : Writer :=
  match w.mode with
  | .writing => if w.fifo = [] then { w with mode := .idle } else { w with fifo := w.fifo ++ [.closeMark] }
  | .idle => if holdsRecord w.fifo then { w with fifo := w.fifo ++ [.closeMark] } else w
  | .suspended => w

theorem State.reachMark_of_marked (s : State) (o : OutletId) (f : Writer → Writer) :
    (((s.modWriter o f).reachMark o).outlet o).writer =
      { f (s.outlet o).writer with mode := .idle, fifo := (f (s.outlet o).writer).fifo.tail } := by
  unfold State.reachMark
  rw [State.modWriter_writer, State.closePage_writer, State.modWriter_writer]

theorem State.markWriter_writer (s : State) (o : OutletId) : ((s.markWriter o).outlet o).writer = (s.outlet o).writer.marked := by
  unfold State.markWriter Writer.marked
  dsimp only
  cases mode : (s.outlet o).writer.mode with
  | suspended => rfl
  | idle =>
    dsimp only
    split
    · rw [State.modWriter_writer, mode]
    · rfl
  | writing =>
    dsimp only
    by_cases empty : (s.outlet o).writer.fifo = []
    · rw [if_pos empty, if_pos (List.isEmpty_iff.mpr empty), State.reachMark_of_marked, empty]
      rw [List.nil_append, List.tail_cons]
    · rw [if_neg empty, if_neg fun h => empty (List.isEmpty_iff.mp h)]
      rw [State.modWriter_writer, mode]

theorem State.markWriter_outlet_of_ne (s : State) {o p : OutletId} (h : p ≠ o) : (s.markWriter o).outlet p = s.outlet p :=
  Outlet.eq_of_same fun x => (Keeps.markWriter (R := fun q _ => q = o) s rfl).outlets p x h

theorem State.foldl_markWriter_writer {os : List OutletId} (once : os.Nodup) (s : State) (o : OutletId) :
    ((os.foldl (fun u p => u.markWriter p) s).outlet o).writer =
      if o ∈ os then (s.outlet o).writer.marked else (s.outlet o).writer := by
  induction os generalizing s with
  | nil => rfl
  | cons p os ih =>
    obtain ⟨new, once⟩ := List.nodup_cons.mp once
    rw [List.foldl_cons, ih once]
    by_cases here : o = p
    · rw [← here, if_neg (here ▸ new), if_pos List.mem_cons_self, State.markWriter_writer]
    · rw [State.markWriter_outlet_of_ne s here]
      simp [here]

theorem State.keepRecords_writer (s : State) (o : OutletId) : (s.keepRecords.outlet o).writer = (s.outlet o).writer.marked :=
  (State.foldl_markWriter_writer allOutlets_once s o).trans (if_pos (mem_allOutlets o))

/-! ### The OPEN page of a marked writer (R123, R133) -/

/-- A page that is not as an unlisted one is listed. -/
theorem mem_of_pageAt {d : List (Nat × PageEntry)} {n : Nat} (listed : pageAt d n ≠ emptyPage) : (n, pageAt d n) ∈ d := by
  unfold pageAt at listed ⊢
  split
  · rename_i x found
    have here : x.1 = n := by simpa using List.find?_some found
    exact here ▸ List.mem_of_find?_eq_some found
  · rename_i missing
    rw [missing] at listed
    exact absurd rfl listed

theorem State.mem_ringPages_of_opened {s : State} {o : OutletId} {n : Nat} (owned : (s.outletSettings o).owns n = true)
    (opened : (pageAt s.directory n).state = .opened) : (n, pageAt s.directory n) ∈ s.ringPages o := by
  refine List.mem_filter.mpr ⟨mem_of_pageAt fun empty => ?_, owned⟩
  rw [empty] at opened
  cases opened

/-- The OPEN page found is the first of the ring. -/
theorem State.openPage_le {s : State} {o : OutletId} (wf : directoryWf s.directory = true) {n m : Nat} {e : PageEntry}
    (found : s.openPage o = some (n, e)) (owned : (s.outletSettings o).owns m = true)
    (opened : (pageAt s.directory m).state = .opened) : n ≤ m := by
  obtain ⟨-, before, after, split, closed⟩ := List.find?_eq_some_iff_append.mp found
  have mem := State.mem_ringPages_of_opened owned opened
  have rising : (s.ringPages o).Pairwise fun x y => x.1 < y.1 := ((directoryWf_iff _).mp wf).1.sublist List.filter_sublist
  rw [split] at mem rising
  obtain ⟨-, tail, -⟩ := List.pairwise_append.mp rising
  rcases List.mem_append.mp mem with early | late
  · have not := closed _ early
    simp [PageEntry.inState, opened] at not
  · rcases List.mem_cons.mp late with same | further
    · exact (congrArg Prod.fst same).ge
    · exact ((List.pairwise_cons.mp tail).1 _ further).le

/-- The OPEN page of an outlet is still its OPEN page where the rings are the same and no other page has become OPEN. -/
theorem State.openPage_of_still {s t : State} {o : OutletId} (wf : directoryWf s.directory = true)
    (wf' : directoryWf t.directory = true) (rings : ∀ m : Nat, (t.outletSettings o).owns m = (s.outletSettings o).owns m)
    (only : ∀ m : Nat, (pageAt t.directory m).state = .opened → (pageAt s.directory m).state = .opened) {n : Nat}
    {e : PageEntry} (found : s.openPage o = some (n, e)) (still : (pageAt t.directory n).state = .opened) :
    t.openPage o = some (n, pageAt t.directory n) := by
  have owned : (t.outletSettings o).owns n = true := (rings n).trans (State.owns_of_openPage found)
  cases next : t.openPage o with
  | none =>
    have closed := List.find?_eq_none.mp next _ (State.mem_ringPages_of_opened owned still)
    simp [PageEntry.inState, still] at closed
  | some x =>
    obtain ⟨m, x⟩ := x
    obtain ⟨entry, opened⟩ := State.openPage_entry wf' next
    have owned' : (t.outletSettings o).owns m = true := State.owns_of_openPage next
    have first : m ≤ n := State.openPage_le wf' next owned still
    have last : n ≤ m := State.openPage_le wf found ((rings m).symm.trans owned') (only m (entry ▸ opened))
    rw [← entry, Nat.le_antisymm first last]

theorem Closes.openPage {s t : State} (h : Closes s t) {o : OutletId} (wf : directoryWf s.directory = true) {n : Nat}
    {e : PageEntry} (found : s.openPage o = some (n, e)) (still : (pageAt t.directory n).state = .opened) :
    t.openPage o = some (n, pageAt t.directory n) :=
  State.openPage_of_still wf (h.canonical wf) (fun m => (congrArg (fun u : State => (u.outletSettings o).owns m) h.frame :))
    (fun m => (h.pages wf m).opened) found still

/-- A page that is no longer OPEN, once OPEN pages alone can be closed, stays so. -/
theorem Closes.closed {s t : State} (h : Closes s t) (wf : directoryWf s.directory = true) {n : Nat}
    (closed : (pageAt s.directory n).state = .closed) : (pageAt t.directory n).state = .closed := by
  rcases (h.pages wf n).2 with same | ⟨opened, -⟩
  · exact same.trans closed
  · rw [closed] at opened
    cases opened

/-- A page that was OPEN is OPEN or CLOSED where pages have only been closed. -/
theorem Closes.opened_or_closed {s t : State} (h : Closes s t) (wf : directoryWf s.directory = true) {n : Nat}
    (opened : (pageAt s.directory n).state = .opened) :
    (pageAt t.directory n).state = .opened ∨ (pageAt t.directory n).state = .closed :=
  (h.pages wf n).2.imp (fun same => same.trans opened) And.right

theorem State.closePage_closed {s : State} {o : OutletId} {n : Nat} {e : PageEntry} (found : s.openPage o = some (n, e)) :
    (pageAt (s.closePage o).directory n).state = .closed := by
  rw [State.closePage_of_some found]
  obtain ⟨-, frame⟩ := report_spec o n true (s.modPage n fun e => { e with state := .closed })
  have entry := State.pageAt_modPage s n n fun e => { e with state := .closed }
  rw [if_pos rfl] at entry
  generalize report o n true (s.modPage n fun e => { e with state := .closed }) = t at frame
  have directory : t.directory = (s.modPage n fun e => { e with state := .closed }).directory := (congrArg State.directory frame :)
  rw [directory, entry]

/-- A WRITING writer with nothing waiting closes its OPEN page as it reaches its mark. -/
theorem State.markWriter_closed {s : State} {o : OutletId} (writing : (s.outlet o).writer.mode = .writing)
    (empty : (s.outlet o).writer.fifo = []) {n : Nat} {e : PageEntry} (found : s.openPage o = some (n, e)) :
    (pageAt (s.markWriter o).directory n).state = .closed := by
  unfold State.markWriter
  dsimp only
  rw [writing, empty]
  exact State.closePage_closed (s := s.modWriter o fun w => { w with fifo := w.fifo ++ [.closeMark] }) found

/-- Every WRITING writer with nothing waiting finds its OPEN page closed. -/
theorem State.keepRecords_closed {s : State} {o : OutletId} (wf : directoryWf s.directory = true)
    (writing : (s.outlet o).writer.mode = .writing) (empty : (s.outlet o).writer.fifo = []) {n : Nat} {e : PageEntry}
    (found : s.openPage o = some (n, e)) : (pageAt s.keepRecords.directory n).state = .closed := by
  obtain ⟨before, after, split⟩ := List.append_of_mem (mem_allOutlets o)
  have new : o ∉ before := fun mem => by
    have once := allOutlets_once
    rw [split] at once
    exact (List.disjoint_of_nodup_append once) mem List.mem_cons_self
  have first := Closes.foldl before s
  have last (u : State) := Closes.foldl after u
  have writer : ((before.foldl (fun u p => u.markWriter p) s).outlet o).writer = (s.outlet o).writer := by
    have once : before.Nodup := (allOutlets_once.sublist (split ▸ List.sublist_append_left _ _))
    exact (State.foldl_markWriter_writer once s o).trans (if_neg new)
  have same : s.keepRecords =
      after.foldl (fun u p => u.markWriter p) ((before.foldl (fun u p => u.markWriter p) s).markWriter o) := by
    unfold State.keepRecords State.eachOutlet
    rw [split, List.foldl_append, List.foldl_cons]
  rw [same]
  generalize before.foldl (fun u p => u.markWriter p) s = t at first writer
  have canonical := first.canonical wf
  have marked := Closes.markWriter t o
  refine (last _).closed (marked.canonical canonical) ?_
  rcases first.opened_or_closed wf ((State.openPage_entry wf found).1 ▸ (State.openPage_entry wf found).2) with opened | closed
  · exact State.markWriter_closed (writer ▸ writing) (writer ▸ empty) (first.openPage wf found opened)
  · exact marked.closed canonical closed

end Sys2Proof.Machine
end

section
/-! A RESTART taken (R54, R91, R133, R168, R180 to R182): its first two steps, the rest of it, and the restart that keeps record
state. -/

namespace Sys2Proof.Machine

/-! ### Records created one after another (R147, R148) -/

/-- Records created change the sequence, the FIFO and what is lost, and join the FIFO behind what stood. -/
theorem Evidence.foldl_create_frame (ds : List Draft) (e : Evidence) :
    (∃ more : List EvidenceRecord, (ds.foldl Evidence.create e).fifo = e.fifo ++ more) ∧
      { ds.foldl Evidence.create e with
        sequence := e.sequence, fifo := e.fifo, lossPending := e.lossPending, lost := e.lost } = e := by
  induction ds generalizing e with
  | nil => exact ⟨⟨[], (List.append_nil _).symm⟩, rfl⟩
  | cons d ds ih =>
    obtain ⟨⟨more, fifo⟩, rest⟩ := ih (e.create d)
    obtain ⟨-, -, -, -, -, last⟩ := e.create_spec d
    have first : { e.create d with sequence := e.sequence, fifo := e.fifo, lossPending := e.lossPending, lost := e.lost } = e := by
      unfold Evidence.create
      dsimp only
      split <;> rfl
    refine ⟨?_, (congrArg (fun x : Evidence =>
      { x with sequence := e.sequence, fifo := e.fifo, lossPending := e.lossPending, lost := e.lost }) rest).trans first⟩
    rw [List.foldl_cons, fifo]
    rcases last with same | ⟨-, behind⟩
    · exact ⟨more, by rw [same]⟩
    · exact ⟨_, by rw [behind, List.append_assoc]⟩

/-- A record that was not lost is the last one of the FIFO, with the sequence it was given. -/
theorem Evidence.create_last {e : Evidence} {d : Draft} (kept : (e.create d).lossPending = false) :
    (e.create d).fifo.getLast?.map (fun x => (x.draft, x.sequence)) = some (d, e.sequence) := by
  unfold Evidence.create at kept ⊢
  split
  · rw [List.getLast?_concat]
    rfl
  · rename_i full
    rw [if_neg full] at kept
    cases kept

/-! ### Deferred reads ended and the outlets closed (R54, R168) -/

/-- A port whose deferred reads were answered ABORTED: what a restart's first two steps leave of it but its flags. -/
structure LinkPort.Aborted (p q : LinkPort) : Prop where
  deferred : q.deferred = []
  fetches : q.fetches = p.fetches
  mask : q.mask = p.mask
  held : q.held = p.held
  responses : ∃ rs : List Response, q.responses = p.responses ++ rs ∧ ∀ x ∈ rs, x.code = 11

theorem abortDeferred_port (l : Link) (s : State) : (s.link l).Aborted ((abortDeferred l s).link l) := by
  have link : (abortDeferred l s).link l = ({ s.link l with deferred := [] } : LinkPort).answeredReads
      (s.shuffled (s.link l).deferred) .aborted fun d => s.pageFound d.outlet d.sequence [] := by
    rw [abortDeferred_eq]
    exact State.modLink_link s l _
  rw [link]
  refine ⟨rfl, rfl, rfl, rfl, _, rfl, fun x mem => ?_⟩
  obtain ⟨d, -, same⟩ := List.mem_map.mp mem
  rw [← same]

theorem abortDeferred_link_of_ne {l m : Link} (h : m ≠ l) (s : State) : (abortDeferred l s).link m = s.link m := by
  rw [abortDeferred_eq]
  exact State.modLink_link_of_ne s h _

theorem abortDeferred_frame (l : Link) (s : State) : { abortDeferred l s with links := s.links, free := s.free } = s := by
  rw [abortDeferred_eq]
  rfl

theorem State.abortAll_spec (s : State) :
    (∀ l : Link, (s.link l).Aborted (s.abortAll.link l)) ∧ { s.abortAll with links := s.links, free := s.free } = s := by
  unfold State.abortAll
  have own := abortDeferred_port .automation s
  have other := abortDeferred_link_of_ne (l := .automation) (m := .compliance) (by decide) s
  have frame := abortDeferred_frame .automation s
  generalize abortDeferred .automation s = t at own other frame
  refine ⟨fun l => ?_, ?_⟩
  · cases l with
    | automation => exact (abortDeferred_link_of_ne (l := .compliance) (m := .automation) (by decide) t).symm ▸ own
    | compliance => exact other ▸ abortDeferred_port .compliance t
  · rw [← frame]
    exact congrArg (fun u : State => { u with links := s.links, free := s.free }) (abortDeferred_frame .compliance t)

/-- What the first two steps of a restart leave: deferred reads ended, and every outlet OFF with its restart values; holds, their
counts and records only added to. -/
structure Closed (s t : State) : Prop where
  frame : { t with outlets := s.outlets, directory := s.directory, holds := s.holds, holdCounter := s.holdCounter,
                   evidence := s.evidence, links := s.links, free := s.free } = s
  outlets : ∀ o : OutletId, t.outlet o =
    { intake := (s.outlet o).intake.restarted, sched := restSched, loud := restLoud, subs := restSubs, verdict := restVerdict,
      writer := (s.outlet o).writer }
  ports : ∀ l : Link, (s.link l).Aborted (t.link l)
  pages : ∀ n : Nat, { pageAt t.directory n with holdCount := (pageAt s.directory n).holdCount } = pageAt s.directory n
  counts : ∀ n : Nat, (pageAt s.directory n).holdCount ≤ (pageAt t.directory n).holdCount
  canonical : directoryWf s.directory = true → directoryWf t.directory = true
  holds : ∃ more : List Hold, t.holds = s.holds ++ more
  records : ∃ ds : List Draft, t.evidence = ds.foldl Evidence.create s.evidence

theorem State.closing_closed (s : State) : Closed s s.abortAll.closeAll := by
  have outlets := s.closing_outlet
  obtain ⟨ports, frame⟩ := s.abortAll_spec
  have spread := Spreads.closeAll s.abortAll
  generalize s.abortAll = t at outlets ports frame spread
  generalize t.closeAll = u at outlets spread
  have directory : t.directory = s.directory := (congrArg State.directory frame :)
  have holds : t.holds = s.holds := (congrArg State.holds frame :)
  have evidence : t.evidence = s.evidence := (congrArg State.evidence frame :)
  refine ⟨?_, outlets, fun l => ?_, directory ▸ spread.pages, directory ▸ spread.counts, directory ▸ spread.canonical,
    holds ▸ spread.holds, evidence ▸ spread.records⟩
  · exact (congrArg (fun v : State =>
      { v with outlets := s.outlets, directory := s.directory, holds := s.holds, holdCounter := s.holdCounter,
               evidence := s.evidence, links := s.links, free := s.free }) spread.frame).trans
      (congrArg (fun v : State =>
      { v with outlets := s.outlets, directory := s.directory, holds := s.holds, holdCounter := s.holdCounter,
               evidence := s.evidence }) frame)
  · have port := ports l
    have same := spread.links l
    exact ⟨(congrArg LinkPort.deferred same).trans port.deferred, (congrArg LinkPort.fetches same).trans port.fetches,
      (congrArg LinkPort.mask same).trans port.mask, (congrArg LinkPort.held same).trans port.held,
      (congrArg LinkPort.responses same).symm ▸ port.responses⟩

/-- The same, from the state before the request was taken. -/
theorem State.taken_closed (s : State) (l : Link) : Closed s (s.takeRequest l).abortAll.closeAll := by
  have closed := (s.takeRequest l).closing_closed
  generalize (s.takeRequest l).abortAll.closeAll = t at closed
  refine ⟨?_, closed.outlets, fun m => ?_, closed.pages, closed.counts, closed.canonical, closed.holds, closed.records⟩
  · exact (congrArg (fun v : State => { v with links := s.links }) closed.frame :)
  · obtain ⟨deferred, fetches, mask, held, responses⟩ := closed.ports m
    cases l <;> cases m <;> exact ⟨deferred, fetches, mask, held, responses⟩

theorem Closed.clearing {s t : State} (h : Closed s t) (reload : Bool) : t.clearing reload = s.clearing reload :=
  (congrArg (fun u : State => u.clearing reload) h.frame :)

theorem Closed.port {s t : State} (h : Closed s t) : t.port = s.port := (congrArg State.port h.frame :)

/-! ### The rest of a restart (R180 to R182) -/

/-- A port once the restart is answered. -/
def LinkPort.restarted (p : LinkPort) (l : Link) (g : RestartProgress) (cleared : Bool) (q : BitVec 32) : LinkPort :=
  match g.tag with
  | none => p
  | some tag =>
    if l = .compliance then { p with held := none }.respond tag 19 .ok (.restart g.reload cleared q) else p

theorem State.answerRestart_link (s : State) (p : RestartProgress) (cleared : Bool) (q : BitVec 32) (l : Link) :
    (s.answerRestart p cleared q).link l = (s.link l).restarted l p cleared q := by
  unfold State.answerRestart LinkPort.restarted
  cases p.tag with
  | none => rfl
  | some tag => cases l <;> rfl

theorem State.answerRestart_but_links (s : State) (p : RestartProgress) (cleared : Bool) (q : BitVec 32) :
    { s.answerRestart p cleared q with links := s.links } = s := by
  unfold State.answerRestart
  split <;> rfl

theorem State.answerRestart_evidence (s : State) (p : RestartProgress) (cleared : Bool) (q : BitVec 32) :
    (s.answerRestart p cleared q).evidence = s.evidence :=
  (congrArg State.evidence (s.answerRestart_but_links p cleared q) :)

/-- The RESTART record (R182). -/
def State.restartDraft (s : State) (p : RestartProgress) (cleared : Bool) : Draft :=
  { outlet := none, stamp := s.time.air,
    body := .restart p.reload cleared p.notes ((s.applyReload p.reload).settings.outlets.map fun t => t.enabled)
      (s.removed cleared).1 (s.removed cleared).2 p.aborted }

/-- The rest of a restart beside the outlets, from the record store taken to its restart values. -/
theorem State.finishRestart_spec {s t : State} (p : RestartProgress) (cleared : Bool)
    (settled : (s.applyReload p.reload).restartRecords cleared = t) (air : t.time.air = s.time.air) :
    (s.finishRestart p cleared).evidence = t.evidence.create (s.restartDraft p cleared) ∧
      (∀ l : Link, (s.finishRestart p cleared).link l = (t.link l).restarted l p cleared t.evidence.sequence) ∧
      (s.finishRestart p cleared).restarting = none ∧
      { s.finishRestart p cleared with
        outlets := t.outlets, evidence := t.evidence, links := t.links, restarting := t.restarting } = t := by
  have unfolded := s.finishRestart_eq p cleared
  unfold State.restartWritten at unfolded
  rw [settled] at unfolded
  generalize s.finishRestart p cleared = u at unfolded
  subst unfolded
  refine ⟨(State.answerRestart_evidence _ _ _ _).trans ?_, fun l => (State.answerRestart_link _ _ _ _ l).trans ?_,
    (State.answerRestart_frame _ _ _ _).2.trans ?_, ?_⟩
  · rw [State.restartDraft, ← air]
    rfl
  · rfl
  · rfl
  · exact (congrArg (fun v : State =>
      { v with outlets := t.outlets, evidence := t.evidence, links := t.links, restarting := t.restarting })
      (State.answerRestart_but_links _ p cleared _) :)

/-! ### A restart that keeps record state (R133) -/

/-- The rest of a restart that keeps record state, from the state with every outlet closed. -/
structure Kept (s u : State) (p : RestartProgress) : Prop where
  settings : u.settings = (s.applyReload p.reload).settings
  outlets : ∀ o : OutletId, u.outlet o =
    { s.outlet o with
      intake := { (s.outlet o).intake with state := returnedState (u.outletSettings o) }
      writer := (s.outlet o).writer.marked }
  pages : directoryWf s.directory = true → ∀ n : Nat, (pageAt s.directory n).MayClose (pageAt u.directory n)
  closed : directoryWf s.directory = true → ∀ (o : OutletId) (n : Nat) (e : PageEntry),
    (s.outlet o).writer.mode = .writing → (s.outlet o).writer.fifo = [] → (s.applyReload p.reload).openPage o = some (n, e) →
    (pageAt u.directory n).state = .closed
  evidence : u.evidence = s.evidence.create (s.restartDraft p false)
  links : ∀ l : Link, (s.link l).deferred = [] → u.link l = (s.link l).restarted l p false s.evidence.sequence
  positions : u.highPos = 0 ∧ u.lowPos = 0
  ready : u.restarting = none
  frame : { u with settings := s.settings, outlets := s.outlets, directory := s.directory, evidence := s.evidence, links := s.links,
                   highPos := s.highPos, lowPos := s.lowPos, free := s.free, restarting := s.restarting } = s

theorem State.finishRestart_kept (s : State) (p : RestartProgress) : Kept s (s.finishRestart p false) p := by
  have settings := s.finishRestart_settings p false
  have outlets := s.finishRestart_outlet p false
  have reloaded := s.applyReload_rest p.reload
  have outlet := s.applyReload_outlet p.reload
  have writers (o : OutletId) := (s.applyReload p.reload).keepRecords_writer o
  have closes := Closes.keepRecords (s.applyReload p.reload)
  have closed {o : OutletId} := State.keepRecords_closed (s := s.applyReload p.reload) (o := o)
  rw [State.restartRecords_kept] at outlets
  have same := (s.applyReload p.reload).restartRecords_kept
  generalize (s.applyReload p.reload).keepRecords = t at outlets writers closes closed same
  have beside : { t with
      settings := s.settings, outlets := s.outlets, directory := s.directory, links := s.links, free := s.free } = s :=
    (congrArg (fun u : State =>
        { u with settings := s.settings, outlets := s.outlets, directory := s.directory, links := s.links, free := s.free })
        closes.frame).trans
      (congrArg (fun u : State =>
        { u with outlets := s.outlets, directory := s.directory, links := s.links, free := s.free }) reloaded)
  have directory : (s.applyReload p.reload).directory = s.directory := (congrArg State.directory reloaded :)
  have evidence : t.evidence = s.evidence := (congrArg State.evidence beside :)
  obtain ⟨records, links, ready, frame⟩ := s.finishRestart_spec p false same (congrArg (fun u : State => u.time.air) beside :)
  generalize s.finishRestart p false = u at settings outlets records links ready frame
  have written : u.directory = t.directory := (congrArg State.directory frame :)
  refine ⟨settings, fun o => ?_, fun wf n => ?_, fun wf o n e writing empty found => ?_, ?_, fun l none => ?_,
    ⟨(congrArg State.highPos frame :), (congrArg State.lowPos frame :)⟩, ready, ?_⟩
  · rw [outlets o, ← outlet o]
    exact congrArg (fun w : Writer => { (s.applyReload p.reload).outlet o with
      intake := { ((s.applyReload p.reload).outlet o).intake with state := returnedState (u.outletSettings o) }
      writer := w }) (writers o)
  · rw [written, ← directory]
    exact closes.pages (directory ▸ wf) n
  · rw [written]
    exact closed (directory ▸ wf) (outlet o ▸ writing) (outlet o ▸ empty) found
  · rw [records]
    exact congrArg (fun e : Evidence => e.create (s.restartDraft p false)) evidence
  · have port : (s.applyReload p.reload).link l = s.link l := (congrArg (fun v : State => v.link l) reloaded :)
    refine (links l).trans ?_
    rw [show State.link { t with highPos := 0, lowPos := 0 } l = s.link l from (closes.links l (port ▸ none)).trans port]
    exact congrArg (fun e : Evidence => (s.link l).restarted l p false e.sequence) evidence
  · exact (congrArg (fun v : State => { v with
      settings := s.settings, outlets := s.outlets, directory := s.directory, evidence := s.evidence, links := s.links,
      highPos := s.highPos, lowPos := s.lowPos, free := s.free, restarting := s.restarting }) frame).trans
      (congrArg (fun v : State => { v with
      evidence := s.evidence, highPos := s.highPos, lowPos := s.lowPos, restarting := s.restarting }) beside :)

/-! ### RESTART carried out (R163, R180) -/

/-- What a restart taken is to answer for later (R180, R182). -/
def State.progress (s : State) (reload : Bool) (tag : Tag) : RestartProgress :=
  { reload := reload, tag := some tag, notes := s.restartNotes, aborted := s.deferredCount }

theorem exec_restart_of_serving {s : State} {r : Request} {reload : Bool} (serving : Serving s .compliance 19 r)
    (args : readRestart r.body = some reload) (ready : s.restarting = none) (saved : reload = true → s.save = none) :
    exec (.restart .compliance) s = .next ((s.takeRequest .compliance).runRestart reload r.tag).refresh := by
  refine (serve_of_serving (restartRequest .compliance) serving).trans (next_refresh_congr ?_)
  have idle : ((s.takeRequest .compliance).restarting.isSome || (reload && (s.takeRequest .compliance).save.isSome)) = false := by
    rw [show (s.takeRequest .compliance).restarting = none from ready]
    cases reload with
    | false => rfl
    | true =>
      rw [show (s.takeRequest .compliance).save = none from saved rfl]
      rfl
  unfold restartRequest
  rw [args, withArgs_some, idle]
  rfl

/-- A restart that need not wait is carried out to its end. -/
theorem State.runRestart_of_free {s : State} {reload : Bool} {tag : Tag} {l : Link}
    (free : s.clearing reload = true → s.port = none) :
    (s.takeRequest l).runRestart reload tag =
      (s.takeRequest l).abortAll.closeAll.finishRestart (s.progress reload tag) (s.clearing reload) := by
  have closed := s.taken_closed l
  have progress : (s.takeRequest l).progress reload tag = s.progress reload tag := by cases l <;> rfl
  have clearing := closed.clearing reload
  have port := closed.port
  unfold State.runRestart
  rw [show RestartProgress.mk reload (some tag) (s.takeRequest l).restartNotes (s.takeRequest l).deferredCount =
    s.progress reload tag from progress]
  dsimp only
  rw [clearing, port]
  cases clears : s.clearing reload with
  | false => rfl
  | true =>
    rw [free clears]
    rfl

/-- A clearing restart waits for a burst in progress. -/
theorem State.runRestart_of_busy {s : State} {reload : Bool} {tag : Tag} {l : Link} (clears : s.clearing reload = true)
    (busy : s.port.isSome = true) :
    (s.takeRequest l).runRestart reload tag = (s.takeRequest l).abortAll.closeAll.awaitBurst (s.progress reload tag) := by
  have closed := s.taken_closed l
  have progress : (s.takeRequest l).progress reload tag = s.progress reload tag := by cases l <;> rfl
  have clearing := closed.clearing reload
  have port := closed.port
  unfold State.runRestart
  rw [show RestartProgress.mk reload (some tag) (s.takeRequest l).restartNotes (s.takeRequest l).deferredCount =
    s.progress reload tag from progress]
  dsimp only
  rw [clearing, port, clears, busy]
  rfl

/-! ### The obligation -/

theorem State.clearing_free {s : State} {reload : Bool} (same : s.clearing reload = false) :
    s.clearing reload = true → s.port = none := fun clears => by
  rw [same] at clears
  cases clears

/-- The close marks of a restart, in the words of R133. -/
theorem Writer.marked_eq (w : Writer) : w.marked =
    match w.mode with
    | .writing => if w.fifo = [] then { w with mode := .idle } else { w with fifo := w.fifo ++ [.closeMark] }
    | .idle =>
      if w.fifo.any (fun i => match i with | .record _ => true | .closeMark => false) then { w with fifo := w.fifo ++ [.closeMark] }
      else w
    | .suspended => w := rfl

/-- Pages after the closes of the outlets and of the writers. -/
theorem PageEntry.MayClose.after_counts {e x y : PageEntry} (counts : { x with holdCount := e.holdCount } = e) (h : x.MayClose y) :
    y = { e with state := y.state, holdCount := y.holdCount } ∧ y.holdCount = x.holdCount ∧
      (y.state = e.state ∨ e.state = .opened ∧ y.state = .closed) := by
  obtain ⟨rest, state⟩ := h
  have same : x.state = e.state := (congrArg PageEntry.state counts :)
  refine ⟨?_, (congrArg PageEntry.holdCount rest :), same ▸ state⟩
  rw [← counts]
  exact (congrArg (fun z : PageEntry => { z with state := y.state, holdCount := y.holdCount }) rest :)

/-- A page found OPEN before the closes of the outlets and the reload is found OPEN after them: they reach hold counts alone, and a
reload that is not clearing leaves the rings (R181). -/
theorem Closed.openPage {s t : State} (h : Closed s t) {reload : Bool} (same : s.clearing reload = false)
    (wf : directoryWf s.directory = true) {o : OutletId} {n : Nat} {e : PageEntry} (found : s.openPage o = some (n, e)) :
    (t.applyReload reload).openPage o = some (n, pageAt t.directory n) := by
  have rings := (State.applyReload_layout ((h.clearing reload).trans same)).1
  have settings : t.outletSettings o = s.outletSettings o := (congrArg (fun u : State => u.outletSettings o) h.frame :)
  have directory : (t.applyReload reload).directory = t.directory := (congrArg State.directory (t.applyReload_rest reload) :)
  have state (m : Nat) : (pageAt t.directory m).state = (pageAt s.directory m).state := (congrArg PageEntry.state (h.pages m) :)
  obtain ⟨entry, opened⟩ := State.openPage_entry wf found
  rw [← directory]
  refine State.openPage_of_still wf (directory ▸ h.canonical wf) (fun m => (rings o m).trans (by rw [settings]))
    (fun m after => ?_) found ?_
  · rw [directory, state m] at after
    exact after
  · rw [directory, state n, entry]
    exact opened

theorem State.applyReload_settings (s : State) (reload : Bool) :
    (s.applyReload reload).settings = if reload then { s.imageCopy with profile := s.settings.profile } else s.settings := by
  unfold State.applyReload
  split <;> rfl

theorem Closed.settings {s t : State} (h : Closed s t) (reload : Bool) :
    (t.applyReload reload).settings = (s.applyReload reload).settings := by
  rw [State.applyReload_settings, State.applyReload_settings, show t.settings = s.settings from (congrArg State.settings h.frame :),
    show t.imageCopy = s.imageCopy from (congrArg State.imageCopy h.frame :)]

/-- Settles O59: every outlet closed, then the record store kept with its close marks and the RESTART record written. -/
theorem restartKeepsRecords : Obligations.RestartKeepsRecords := by
  unfold Obligations.RestartKeepsRecords
  intro s r reload serving args ready saved same settings notes aborted
  have executed := exec_restart_of_serving serving args ready saved
  rw [State.runRestart_of_free (State.clearing_free same), same] at executed
  have closed := s.taken_closed .compliance
  have clearing := closed.openPage same
  generalize (s.takeRequest .compliance).abortAll.closeAll = c at executed closed clearing
  have kept := c.finishRestart_kept (s.progress reload r.tag)
  generalize c.finishRestart (s.progress reload r.tag) false = u at executed kept
  have reloaded : (c.applyReload reload).settings = settings := (closed.settings reload).trans (s.applyReload_settings reload)
  have inForce : u.settings = settings := kept.settings.trans reloaded
  have ports (l : Link) := (kept.links l (closed.ports l).deferred)
  have draft : c.restartDraft (s.progress reload r.tag) false =
      { outlet := none, stamp := s.time.air,
        body := .restart reload false notes (settings.outlets.map fun t => t.enabled) 0 0 aborted } := by
    rw [← reloaded, show s.time.air = c.time.air from (congrArg (fun t : State => t.time.air) closed.frame).symm]
    rfl
  have evidence := kept.evidence
  obtain ⟨ds, records⟩ := closed.records
  have appended := Evidence.foldl_create_frame (ds ++ [c.restartDraft (s.progress reload r.tag) false]) s.evidence
  rw [List.foldl_append, List.foldl_cons, List.foldl_nil, ← records, ← evidence] at appended
  rw [draft] at evidence
  have port (l : Link) : (u.refresh.link l).deferred = [] ∧ (u.refresh.link l).fetches = (s.link l).fetches ∧
      (u.refresh.link l).mask = (s.link l).mask := by
    have aborted := closed.ports l
    rw [State.refresh_link, ports l]
    cases l <;> exact ⟨aborted.deferred, aborted.fetches, aborted.mask⟩
  refine ⟨u.refresh, c.evidence.sequence, executed, inForce, kept.ready, fun o => ?_,
    fun wf => ⟨fun n => ?_, fun o n e writing empty found => ?_⟩, ?_, appended.1, appended.2, ?_, fun room => ?_, port,
    kept.positions.1, kept.positions.2, ?_, ?_⟩
  · have outlet := kept.outlets o
    rw [closed.outlets o] at outlet
    have returned : returnedState (u.outletSettings o) = if (settings.outlets[o]).enabled then .waiting else .off := by
      rw [← inForce]
      rfl
    rw [returned] at outlet
    rw [show u.refresh.outlet o = _ from outlet]
    exact ⟨rfl, rfl, rfl, rfl, rfl, Writer.marked_eq _⟩
  · obtain ⟨rest, count, state⟩ := (kept.pages (closed.canonical wf) n).after_counts (closed.pages n)
    exact ⟨rest, count ▸ closed.counts n, state⟩
  · have writer : (c.outlet o).writer = (s.outlet o).writer := (congrArg Outlet.writer (closed.outlets o) :)
    exact kept.closed (closed.canonical wf) o n _ (writer ▸ writing) (writer ▸ empty) (clearing wf found)
  · obtain ⟨more, holds⟩ := closed.holds
    exact ⟨more, (congrArg State.holds kept.frame).trans holds⟩
  · exact (congrArg Evidence.sequence evidence).trans (Evidence.create_spec _ _).1
  · rw [show u.refresh.evidence = _ from evidence] at room ⊢
    exact Evidence.create_last room
  · rw [State.refresh_link, ports .compliance]
    exact List.getLast?_concat
  · have first := (congrArg (fun v : State =>
      { v with outlets := s.outlets, directory := s.directory, holds := s.holds, holdCounter := s.holdCounter,
               evidence := s.evidence, links := s.links, free := s.free }) kept.frame)
    have before : c.settings = s.settings ∧ c.highPos = s.highPos ∧ c.lowPos = s.lowPos ∧ c.restarting = s.restarting :=
      ⟨(congrArg State.settings closed.frame :), (congrArg State.highPos closed.frame :), (congrArg State.lowPos closed.frame :),
        (congrArg State.restarting closed.frame :)⟩
    obtain ⟨a, b, d, e⟩ := before
    have whole := first.trans closed.frame
    rw [a, b, d, e, ready, ← kept.ready] at whole
    exact whole

end Sys2Proof.Machine
end

section
/-! A clearing reload (R134, R146, R160, R180 to R182): with the port free, with a burst in progress, and at the end of
that burst. -/

namespace Sys2Proof.Machine

/-! ### The rest of a clearing restart (R134, R146, R160) -/

/-- The record state cleared, and the RESTART record the one there is. -/
structure Cleared (s u : State) (p : RestartProgress) : Prop where
  settings : u.settings = (s.applyReload p.reload).settings
  outlets : ∀ o : OutletId, u.outlet o =
    { s.outlet o with
      intake := { (s.outlet o).intake with state := returnedState (u.outletSettings o) }
      writer := restWriter }
  pages : u.directory = []
  holds : u.holds = []
  evidence : u.evidence = restEvidence.create (s.restartDraft p true)
  links : ∀ l : Link, u.link l =
    LinkPort.restarted { s.link l with fetches := (s.link l).fetches.map Fetch.overtaken } l p true 0
  positions : u.highPos = 0 ∧ u.lowPos = 0
  ready : u.restarting = none
  frame : { u with settings := s.settings, outlets := s.outlets, directory := s.directory, holds := s.holds, evidence := s.evidence,
                   links := s.links, highPos := s.highPos, lowPos := s.lowPos, restarting := s.restarting } = s

section
variable {s u : State} {p : RestartProgress}

theorem Cleared.pageSeq (h : Cleared s u p) : u.pageSeq = s.pageSeq := (congrArg State.pageSeq h.frame :)

theorem Cleared.profiles (h : Cleared s u p) : u.profiles = s.profiles := (congrArg State.profiles h.frame :)

theorem Cleared.time (h : Cleared s u p) : u.time = s.time := (congrArg State.time h.frame :)

theorem Cleared.cues (h : Cleared s u p) : u.cues = s.cues := (congrArg State.cues h.frame :)

theorem Cleared.memory (h : Cleared s u p) : u.memory = s.memory := (congrArg State.memory h.frame :)

end

theorem State.clearRecords_link (s : State) (l : Link) :
    s.clearRecords.link l = { s.link l with fetches := (s.link l).fetches.map Fetch.overtaken } := by
  cases l <;> rfl

theorem State.finishRestart_cleared (s : State) (p : RestartProgress) : Cleared s (s.finishRestart p true) p := by
  have settings := s.finishRestart_settings p true
  have outlets := s.finishRestart_outlet p true
  have reloaded := s.applyReload_rest p.reload
  have same := (s.applyReload p.reload).restartRecords_cleared
  rw [same] at outlets
  have writer (o : OutletId) := congrArg Outlet.writer ((s.applyReload p.reload).clearRecords_outlet o)
  have port (l : Link) : (s.applyReload p.reload).link l = s.link l := (congrArg (fun v : State => v.link l) reloaded :)
  obtain ⟨records, links, ready, frame⟩ := s.finishRestart_spec p true same (congrArg (fun u : State => u.time.air) reloaded :)
  generalize s.finishRestart p true = u at settings outlets records links ready frame
  refine ⟨settings, fun o => ?_, (congrArg State.directory frame :), (congrArg State.holds frame :), records, fun l => ?_,
    ⟨(congrArg State.highPos frame :), (congrArg State.lowPos frame :)⟩, ready, ?_⟩
  · rw [outlets o]
    exact congrArg (fun w : Writer => { s.outlet o with
      intake := { (s.outlet o).intake with state := returnedState (u.outletSettings o) }
      writer := w }) (writer o)
  · refine (links l).trans ?_
    rw [show State.link { (s.applyReload p.reload).clearRecords with highPos := 0, lowPos := 0 } l = _ from
      (s.applyReload p.reload).clearRecords_link l, port l]
    rfl
  · exact (congrArg (fun v : State => { v with
      settings := s.settings, outlets := s.outlets, directory := s.directory, holds := s.holds, evidence := s.evidence,
      links := s.links, highPos := s.highPos, lowPos := s.lowPos, restarting := s.restarting }) frame).trans
      (congrArg (fun v : State => { v with
      outlets := s.outlets, directory := s.directory, holds := s.holds, evidence := s.evidence,
      links := s.links, highPos := s.highPos, lowPos := s.lowPos, restarting := s.restarting }) reloaded :)

/-! ### The end of a burst while a restart waits (R130, R134) -/

/-- What the end of a burst does before the port is freed: it neither reads nor writes what a restart waits with, and it reaches
outlets, pages, memory, evidence and ports alone. -/
structure EndsBurst (f : State → State) : Prop where
  unaware : ∀ (s : State) (x : Option RestartProgress), f { s with restarting := x } = { f s with restarting := x }
  frame : ∀ s : State, { f s with outlets := s.outlets, directory := s.directory, memory := s.memory, evidence := s.evidence,
                                  links := s.links, free := s.free } = s

theorem EndsBurst.same : EndsBurst fun s => s := ⟨fun _ _ => rfl, fun _ => rfl⟩

theorem EndsBurst.trans {f g : State → State} (h : EndsBurst f) (k : EndsBurst g) : EndsBurst fun s => g (f s) := by
  refine ⟨fun s x => ?_, fun s => ?_⟩
  · rw [h.unaware, k.unaware]
  · exact (congrArg (fun u : State => { u with
      outlets := s.outlets, directory := s.directory, memory := s.memory, evidence := s.evidence, links := s.links,
      free := s.free }) (k.frame (f s))).trans (h.frame s)

theorem EndsBurst.modWriter (o : OutletId) (f : Writer → Writer) : EndsBurst fun s => s.modWriter o f :=
  ⟨fun _ _ => rfl, fun _ => rfl⟩

theorem EndsBurst.modPage (n : Nat) (f : PageEntry → PageEntry) : EndsBurst fun s => s.modPage n f :=
  ⟨fun _ _ => rfl, fun _ => rfl⟩

theorem EndsBurst.storeBurst (p : Placed) (r : FrameRecord) (n : Nat) : EndsBurst fun s => s.storeBurst p r n :=
  ⟨fun _ _ => rfl, fun _ => rfl⟩

theorem EndsBurst.writeEvidence (n : Nat) : EndsBurst fun s => s.writeEvidence n := ⟨fun _ _ => rfl, fun _ => rfl⟩

theorem EndsBurst.releaseLink (l : Link) (tag : Tag) : EndsBurst fun s => s.releaseLink l tag := ⟨fun _ _ => rfl, fun _ => rfl⟩

theorem EndsBurst.reportTo (l : Link) (o : OutletId) (page : Nat) (e : PageEntry) (closing : Bool) :
    EndsBurst fun s => reportTo l o page e closing s := by
  refine ⟨fun s x => ?_, fun s => ?_⟩
  · rw [reportTo_eq, reportTo_eq]
    rfl
  · rw [reportTo_eq]
    rfl

theorem EndsBurst.report (o : OutletId) (page : Nat) (closing : Bool) : EndsBurst fun s => report o page closing s := by
  have work (e : PageEntry) :=
    (EndsBurst.reportTo .automation o page e closing).trans (EndsBurst.reportTo .compliance o page e closing)
  exact ⟨fun s x => (work (pageAt s.directory page)).unaware s x, fun s => (work (pageAt s.directory page)).frame s⟩

theorem EndsBurst.completeRecord (o : OutletId) (p : Placed) (r : FrameRecord) : EndsBurst fun s => s.completeRecord o p r := by
  have work := ((EndsBurst.modPage p.page fun e => e.complete r).trans
    (EndsBurst.modWriter o fun w => { w with placed := none, fifo := w.fifo.tail })).trans (EndsBurst.report o p.page false)
  exact work

theorem EndsBurst.answerPage (l : Link) (tag : Tag) (o : OutletId) (q : BitVec 32) (page offset length : Nat) (short : Bool) :
    EndsBurst fun s => s.answerPage l tag o q page offset length short := by
  refine ⟨fun s x => ?_, fun s => ?_⟩
  · unfold State.answerPage
    rw [show State.findPage { s with restarting := x } o q = s.findPage o q from rfl]
    cases s.findPage o q <;> rfl
  · unfold State.answerPage
    cases s.findPage o q <;> rfl

theorem EndsBurst.answerRead (l : Link) (tag : Tag) (status : Status) (first : Option (BitVec 32)) (records : List Bytes) :
    EndsBurst fun s => s.answerRead l tag status first records := by
  cases l <;> exact ⟨fun _ _ => rfl, fun _ => rfl⟩

theorem EndsBurst.modEvidence (f : Evidence → Evidence) : EndsBurst fun s => s.modEvidence f := ⟨fun _ _ => rfl, fun _ => rfl⟩

theorem EndsBurst.finishRead (l : Link) (tag : Tag) (first : BitVec 32) (fixed asked : Nat) :
    EndsBurst fun s => s.finishRead l tag first fixed asked := by
  have work (past : BitVec 32) (status : Status) (start : Option (BitVec 32)) (records : List Bytes) :=
    (EndsBurst.modEvidence fun e => e.advanceCursor l past).trans (EndsBurst.answerRead l tag status start records)
  refine ⟨fun s x => ?_, fun s => ?_⟩
  · unfold State.finishRead
    dsimp only
    split
    · exact (EndsBurst.answerRead l tag .short none []).unaware s x
    · exact (work _ _ _ _).unaware s x
  · unfold State.finishRead
    dsimp only
    split
    · exact (EndsBurst.answerRead l tag .short none []).frame s
    · exact (work _ _ _ _).frame s

/-- A command of a burst's end comes to nothing, or does its work and frees the port, whatever a restart waits with. -/
def EndsAt (c : Instr) (s : State) : Prop :=
  (∀ x : Option RestartProgress, exec c { s with restarting := x } = .next { s with restarting := x }) ∨
    ∃ f : State → State, EndsBurst f ∧
      ∀ x : Option RestartProgress, exec c { s with restarting := x } = .next (f { s with restarting := x }).freePort.refresh

theorem endsAt_recordBurst (s : State) : EndsAt .recordBurstComplete s := by
  have unfolded (x : Option RestartProgress) : exec .recordBurstComplete { s with restarting := x } =
      execRecordBurstComplete { s with restarting := x } := rfl
  simp only [EndsAt, unfolded, execRecordBurstComplete]
  rcases s.port with _ | ⟨o, n, _ | _⟩ | n | ⟨l, f, gone⟩
  case some.record.false =>
    cases placed : (s.outlet o).writer.inProgress with
    | some x =>
      obtain ⟨p, r⟩ := x
      have work := (EndsBurst.storeBurst p r n).trans (EndsBurst.modWriter o fun w =>
        { w with placed := some { p with written := p.written + n } })
      refine .inr ⟨_, work, fun x => ?_⟩
      dsimp only [State.outlet] at placed ⊢
      rw [placed]
      rfl
    | none =>
      refine .inr ⟨_, .same, fun x => ?_⟩
      dsimp only [State.outlet] at placed ⊢
      rw [placed]
      rfl
  all_goals exact .inl fun _ => rfl

theorem endsAt_recordWrite (s : State) : EndsAt .recordWriteComplete s := by
  have unfolded (x : Option RestartProgress) : exec .recordWriteComplete { s with restarting := x } =
      execRecordWriteComplete { s with restarting := x } := rfl
  simp only [EndsAt, unfolded, execRecordWriteComplete]
  rcases s.port with _ | ⟨o, n, _ | _⟩ | n | ⟨l, f, gone⟩
  case some.record.true =>
    cases placed : (s.outlet o).writer.inProgress with
    | some x =>
      obtain ⟨p, r⟩ := x
      refine .inr ⟨_, (EndsBurst.storeBurst p r n).trans (EndsBurst.completeRecord o p r), fun x => ?_⟩
      dsimp only [State.outlet] at placed ⊢
      rw [placed]
      rfl
    | none =>
      refine .inr ⟨_, .same, fun x => ?_⟩
      dsimp only [State.outlet] at placed ⊢
      rw [placed]
      rfl
  all_goals exact .inl fun _ => rfl

theorem endsAt_evidenceBurst (s : State) : EndsAt .evidenceBurstComplete s := by
  have unfolded (x : Option RestartProgress) : exec .evidenceBurstComplete { s with restarting := x } =
      execEvidenceBurstComplete { s with restarting := x } := rfl
  simp only [EndsAt, unfolded, execEvidenceBurstComplete]
  rcases s.port with _ | ⟨o, n, last⟩ | n | ⟨l, f, gone⟩
  case some.evidence => exact .inr ⟨_, EndsBurst.writeEvidence n, fun _ => rfl⟩
  all_goals exact .inl fun _ => rfl

theorem endsAt_pageRead (s : State) : EndsAt .pageReadFetchComplete s := by
  have unfolded (x : Option RestartProgress) : exec .pageReadFetchComplete { s with restarting := x } =
      execPageReadFetchComplete { s with restarting := x } := rfl
  simp only [EndsAt, unfolded, execPageReadFetchComplete]
  rcases s.port with _ | ⟨o, n, last⟩ | n | ⟨l,
    ⟨tag, o, q, page, offset, length, short⟩ | ⟨tag, first, fixed, asked, ended⟩, _ | _⟩
  case some.read.page.true => exact .inr ⟨_, .same, fun _ => rfl⟩
  case some.read.page.false =>
    exact .inr ⟨_, (EndsBurst.answerPage l tag o q page offset length short).trans (EndsBurst.releaseLink l tag), fun _ => rfl⟩
  all_goals exact .inl fun _ => rfl

theorem endsAt_evidRead (s : State) : EndsAt .evidReadFetchComplete s := by
  have unfolded (x : Option RestartProgress) : exec .evidReadFetchComplete { s with restarting := x } =
      execEvidReadFetchComplete { s with restarting := x } := rfl
  simp only [EndsAt, unfolded, execEvidReadFetchComplete]
  rcases s.port with _ | ⟨o, n, last⟩ | n | ⟨l,
    ⟨tag, o, q, page, offset, length, short⟩ | ⟨tag, first, fixed, asked, _ | _⟩, _ | _⟩
  case some.read.evid.false.false =>
    exact .inr ⟨_, (EndsBurst.finishRead l tag first fixed asked).trans (EndsBurst.releaseLink l tag), fun _ => rfl⟩
  case some.read.evid.true.false =>
    exact .inr ⟨_, (EndsBurst.answerRead l tag .short none []).trans (EndsBurst.releaseLink l tag), fun _ => rfl⟩
  case some.read.evid.false.true => exact .inr ⟨_, .same, fun _ => rfl⟩
  case some.read.evid.true.true => exact .inr ⟨_, .same, fun _ => rfl⟩
  all_goals exact .inl fun _ => rfl

theorem endsAt_of_mem {c : Instr} (mem : c ∈ [.recordBurstComplete, .recordWriteComplete, .evidenceBurstComplete,
    .pageReadFetchComplete, .evidReadFetchComplete]) (s : State) : EndsAt c s := by
  rcases List.mem_cons.mp mem with rfl | mem
  · exact endsAt_recordBurst s
  rcases List.mem_cons.mp mem with rfl | mem
  · exact endsAt_recordWrite s
  rcases List.mem_cons.mp mem with rfl | mem
  · exact endsAt_evidenceBurst s
  rcases List.mem_cons.mp mem with rfl | mem
  · exact endsAt_pageRead s
  · rw [List.mem_singleton.mp mem]
    exact endsAt_evidRead s

/-- At the end of the burst that a restart waits for, the burst's work is done as it is without the restart, and the restart goes
on. -/
theorem exec_resumes {c : Instr} {s t : State} {p : RestartProgress} (ends : EndsAt c s) (waiting : s.restarting = some p)
    (taken : exec c { s with restarting := none } = .next t) (busy : s.port.isSome = true) (free : t.port = none) :
    ∃ f : State → State, EndsBurst f ∧ t = State.refresh { f s with restarting := none, port := none } ∧
      exec c s = .next (({ f s with port := none }).finishRestart p true).refresh := by
  rcases ends with still | ⟨f, work, done⟩
  · rw [still none] at taken
    have same : t.port = s.port := by
      cases taken
      rfl
    rw [← same, free] at busy
    cases busy
  · have ended := taken.symm.trans (done none)
    rw [work.unaware, State.freePort_of_running rfl] at ended
    have own : { s with restarting := s.restarting } = s := rfl
    have resumed := done s.restarting
    have frame : (f s).restarting = some p := (congrArg State.restarting (work.frame s)).trans waiting
    rcases (f s).freePort_cases with ⟨none, -⟩ | ⟨q, some, freed⟩
    · rw [frame] at none
      cases none
    · rw [frame] at some
      cases some
      refine ⟨f, work, ?_, ?_⟩
      · cases ended
        rfl
      · rw [own, freed] at resumed
        exact resumed

/-! ### The obligation -/

/-- The record state cleared by a restart finished at an air time, with its notes and its count of reads ended: RESTART is the one
record. -/
def State.RecordsCleared (u : State) (air : AirTime) (notes : Vector RestartNote 8) (aborted : Nat) : Prop :=
  (∀ n : Nat, pageAt u.directory n = emptyPage) ∧ u.holds = [] ∧ u.restarting = none ∧ u.highPos = 0 ∧ u.lowPos = 0 ∧
    (∃ removed discarded : Nat, u.evidence =
      { restEvidence with
        sequence := 1
        fifo := [{ draft := { outlet := none, stamp := air,
                              body := .restart true true notes (u.settings.outlets.map fun t => t.enabled) removed discarded
                                aborted }
                   sequence := 0, lossBefore := false }] }) ∧
    ∀ o : OutletId, (u.outlet o).writer = restWriter ∧
      (u.outlet o).intake.state = if (u.settings.outlets[o]).enabled then .waiting else .off

theorem Cleared.recordsCleared {s u : State} {p : RestartProgress} (h : Cleared s u p) (reload : p.reload = true) :
    u.RecordsCleared s.time.air p.notes p.aborted := by
  refine ⟨fun n => ?_, h.holds, h.ready, h.positions.1, h.positions.2, ⟨(s.removed true).1, (s.removed true).2, ?_⟩,
    fun o => ?_⟩
  · rw [h.pages]
    rfl
  · rw [h.evidence, State.restartDraft, ← h.settings, reload]
    rfl
  · rw [h.outlets o]
    exact ⟨rfl, rfl⟩

theorem State.applyReload_true (s : State) :
    (s.applyReload true).settings = { s.imageCopy with profile := s.settings.profile } := rfl

/-- Settles O60: at once with the port free; otherwise the restart waits with its outlets closed, and the burst's end resumes it. -/
theorem restartClearsRecords : Obligations.RestartClearsRecords := by
  unfold Obligations.RestartClearsRecords
  intro cleared
  refine ⟨?_, fun s t p c mem waiting reload taken busy free => ?_⟩
  · intro s r serving args ready saved clears notes aborted
    have executed := exec_restart_of_serving serving args ready fun _ => saved
    have closed := s.taken_closed .compliance
    refine ⟨fun free => ?_, fun busy => ?_⟩
    · rw [State.runRestart_of_free fun _ => free, clears] at executed
      generalize (s.takeRequest .compliance).abortAll.closeAll = k at executed closed
      have gone := k.finishRestart_cleared (s.progress true r.tag)
      generalize k.finishRestart (s.progress true r.tag) true = u at executed gone
      have air : k.time.air = s.time.air := (congrArg (fun v : State => v.time.air) closed.frame :)
      refine ⟨u.refresh, executed, gone.settings.trans (closed.settings true), ?_, ?_, ?_, ?_, ?_, ?_, ?_⟩
      · exact air ▸ gone.recordsCleared rfl
      · exact gone.pageSeq.trans (congrArg State.pageSeq closed.frame :)
      · exact gone.profiles.trans (congrArg State.profiles closed.frame :)
      · exact gone.time.trans (congrArg State.time closed.frame :)
      · exact gone.cues.trans (congrArg State.cues closed.frame :)
      · exact gone.memory.trans (congrArg State.memory closed.frame :)
      · rw [State.refresh_link, gone.links .compliance]
        exact List.getLast?_concat
    · rw [State.runRestart_of_busy clears busy] at executed
      generalize (s.takeRequest .compliance).abortAll.closeAll = k at executed closed
      refine ⟨_, executed, rfl, (congrArg State.settings closed.frame :), closed.port, rfl, fun o => ?_, fun x mem code => ?_⟩
      · have outlet : (k.awaitBurst (s.progress true r.tag)).refresh.outlet o = _ := closed.outlets o
        unfold State.current
        rw [outlet]
        exact ⟨rfl, rfl⟩
      · obtain ⟨rs, responses, aborted⟩ := (closed.ports .compliance).responses
        have among : x ∈ (k.link .compliance).responses := mem
        rw [responses] at among
        rcases List.mem_append.mp among with before | behind
        · exact before
        · rw [aborted x behind] at code
          cases code
  · obtain ⟨f, work, ended, executed⟩ := exec_resumes (endsAt_of_mem mem s) waiting taken busy free
    have frame := work.frame s
    generalize f s = k at ended executed frame
    have gone := State.finishRestart_cleared { k with port := none } p
    generalize State.finishRestart { k with port := none } p true = u at executed gone
    have air : k.time.air = s.time.air := (congrArg (fun v : State => v.time.air) frame :)
    have port (l : Link) := gone.links l
    refine ⟨u.refresh, executed, ?_, (congrArg State.port gone.frame :), ?_, ?_, ?_, ?_, ?_, ?_, fun tag some => ?_,
      fun none => ?_⟩
    · rw [show u.refresh.settings = _ from gone.settings, reload, State.applyReload_true]
      rw [show k.settings = s.settings from (congrArg State.settings frame :),
        show k.imageCopy = s.imageCopy from (congrArg State.imageCopy frame :)]
    · exact air ▸ gone.recordsCleared reload
    · exact gone.pageSeq.trans (congrArg State.pageSeq frame :)
    · exact gone.profiles.trans (congrArg State.profiles frame :)
    · exact gone.time.trans (congrArg State.time frame :)
    · exact gone.cues.trans (congrArg State.cues frame :)
    · rw [ended]
      exact gone.memory
    · rw [State.refresh_link, port .compliance, ended, State.refresh_link, LinkPort.restarted, some, reload]
      exact ⟨rfl, rfl⟩
    · rw [State.refresh_link, port .compliance, ended, State.refresh_link, LinkPort.restarted, none]
      rfl

end Sys2Proof.Machine
end
